-- ==== Sys2Proof/Config.lean ====
section
/-! DEFINITION. The parameters of an instance (R7): the open initial resolution, and the minimum waits with the
values the spec gives them. And the one free value of the model. -/

namespace Sys2Proof

/-- A configured resolution in bits (R7's `RES` domain, R22): 12 or 14, nothing else. -/
inductive Resolution where
  | bits12
  | bits14
  deriving DecidableEq, Repr, Inhabited

namespace Config

/-- `INIT_RES`, "fixed when the instance is built; no default" (R7, D10). DESIGN CHOICE (log entry 3): an
uninterpreted constant, so nothing can be proved of which of the two it is. -/
opaque initRes : Resolution

/-- The frame that FINR computes from where ACC holds no value: a free value, one for each such read. DESIGN CHOICE (log
entry 20): the spec states no value there (R26, U14), so nothing can be proved of it. -/
opaque unwrittenFrame : Nat → BitVec 16

/-- `T_CS_SETUP`, in microseconds, a minimum (R7, D16). -/
def tCsSetup : Nat := 3
/-- `T_CS_HOLD`, in microseconds, a minimum (R7, D16). -/
def tCsHold : Nat := 3
/-- `T_GAP`, in microseconds, a minimum (R7, D16). -/
def tGap : Nat := 3
/-- `T_SETTLE_ZERO`, in milliseconds, a minimum (R7, D16). -/
def tSettleZero : Nat := 250
/-- `T_SETTLE_RESET`, in milliseconds, a minimum (R7, D16). -/
def tSettleReset : Nat := 250

end Config
end Sys2Proof
end

