-- ==== Sys2Proof/Word.lean ====
section
/-! DEFINITION. The words of the block's ports: octets (R53), 16-bit words (R54, R70), and the two code formats
of the opcode table. -/

namespace Sys2Proof

/-- One octet of the SPI stream (R53): bit `i` is bit `i` of the value. -/
abbrev Octet := BitVec 8

/-- A 16-bit parallel word: a command word (R70), a response frame (R77), RESULT (R23). -/
abbrev Word := BitVec 16

/-- The two formats of spec/opcode_table.json: `host_cmd16` (R70, presented at the command port) and
`wire_tx_byte` (R80, sent to the bus agent). They travel on different paths (R51), so no prefix tells them apart. -/
inductive Code where
  | command (w : Word)
  | octet (b : Octet)
  deriving DecidableEq, Repr

end Sys2Proof
end

