-- ==== Sys2Proof/Machine/State.lean ====
section
/-! DEFINITION. The block's whole state (R20), the environment's moves and the observation, as plain data; the
machine right after reset (R35). -/

namespace Sys2Proof.Machine

/-- `PROG`, the micro-program that is running (R27). -/
inductive Prog where
  | none
  | read
  | zero
  | rstd
  deriving DecidableEq, Repr

/-- `SEQ = (PROG, IDX)`, the block's program counter (R27); `IDX` has 4 bits. -/
structure Seq where
  prog : Prog
  idx : BitVec 4
  deriving DecidableEq, Repr

/-- A request to an external agent (R28). -/
inductive Request where
  | xfer (tx : Octet)
  | wus (n : Nat)
  | wms (n : Nat)
  deriving DecidableEq, Repr

/-- What the environment does in one step (R6, R223). DESIGN CHOICE (log entry 1). -/
inductive Move where
  /-- No agent does anything: the sequencer takes its own step. -/
  | quiet
  /-- The host presents a command word (R56, R223). -/
  | present (cmd : Word)
  /-- The host reads register number `n` (R34, R64). -/
  | readRegister (n : Nat)
  /-- The host asserts block reset (R210). -/
  | blockReset
  /-- The bus agent returns an octet (R103). -/
  | busAnswer (rx : Octet)
  /-- The timer agent signals that the requested time has elapsed (R104). -/
  | timerElapsed
  deriving DecidableEq, Repr

/-- The events of R109. -/
inductive Event where
  | accept (cmd : Word)
  | drop (cmd : Word)
  | cs (a : Bool)
  | waitUs (n : Nat)
  | waitMs (n : Nat)
  | xfer (tx rx : Octet)
  | done (status : BitVec 8) (result : Word)
  | reset
  deriving DecidableEq, Repr

/-- What a register readout gives the host: the whole register (R51, R56). -/
inductive Readout where
  | result (v : Word)
  | status (v : BitVec 8)
  | config (v : BitVec 8)
  deriving DecidableEq, Repr

/-- Why the machine stops. -/
inductive Fault where
  /-- `IDX` names no micro-operation of the running program: R27 lets no run come there. Raised by the sequencer's
  turn. Safe (log entry 11). -/
  | noMicroOperation (q : Seq)
  deriving DecidableEq, Repr

/-- What the model gives no meaning. -/
inductive Refusal where
  /-- An instruction that has no meaning yet. Raised by no arm of this model. Safe. -/
  | notModelled (mnemonic : String)
  /-- A readout of a register number of 3 and up: "A model refuses a readout request for them" (R64, U13). Raised by
  the register readout. Safe. -/
  | noSuchRegister (n : Nat)
  /-- A wire octet asked for where the running micro-program does not send it: "The block sends only these octets",
  and "which byte each micro-program sends is fixed by rules R82–R84" (R80). Raised by the exchange operation when it is
  called outside such a position, which no step does. Safe (log entry 6). -/
  | octetNotSentHere (tx : Octet) (q : Seq)
  deriving DecidableEq, Repr

/-- The state of R20, and below it the model's own fields. -/
structure State where
  /-- RESULT, register 0 (R23). -/
  result : Word
  /-- STATUS, register 1 (R24); its fields are read and written in Machine/Flags.lean. -/
  status : BitVec 8
  /-- CONFIG, register 2 (R21). -/
  config : BitVec 8
  /-- ACC; it may hold no value, the spec's own state for it after reset (R26, R35; log entry 4). -/
  acc : Option Word
  /-- SEQ (R27). -/
  seq : Seq
  /-- CS_ACT (R25). -/
  csAct : Bool
  /-- PEND (R28). -/
  pend : Option Request
  /-- The sticky model fault of U14: ACC was read while it held no value. The block goes on; no claim is made about such a
  run. No legal run sets it (R26, R35; log entry 20). -/
  accFault : Bool
  /-- How many free values FINR has drawn (log entry 20). -/
  draws : Nat
  /-- The instance's parameter INIT_RES (R7, R38); no step changes it (log entry 3). -/
  initRes : Resolution
  /-- What the environment does in each coming step (log entry 1). -/
  schedule : List Move
  /-- The event trace of R109, oldest first (log entry 9). -/
  trace : List Event
  /-- What the register readout gave the host, oldest first (R51; log entry 9). -/
  readouts : List Readout
  deriving DecidableEq, Repr

/-- The values of R35 for an instance built with `INIT_RES = r`. -/
def State.resetOf (r : Resolution) : State where
  result := 0xFFFF
  status := 0x00
  config := match r with
    | .bits12 => 0x00
    | .bits14 => 0x01
  acc := .none
  seq := ⟨.none, 0⟩
  csAct := false
  pend := .none
  accFault := false
  draws := 0
  initRes := r
  schedule := []
  trace := []
  readouts := []

/-- The machine right after reset (R35, R211): idle, for the open INIT_RES. -/
def State.reset : State := State.resetOf Config.initRes

end Sys2Proof.Machine
end

