-- ==== Sys2Proof/Machine/Flags.lean ====
section
/-! DEFINITION. The fields of STATUS (R24) and CONFIG (R21): every read and write of them goes through here, so the
reserved bits keep what they hold. -/

namespace Sys2Proof.Machine

/-! ### STATUS -/

/-- `STATUS.BUSY`, bit 0 (R24). -/
def statusBusy (v : BitVec 8) : Bool := v.getLsbD 0
/-- `STATUS.DONE`, bit 1 (R24). -/
def statusDone (v : BitVec 8) : Bool := v.getLsbD 1
/-- `STATUS.ERR`, bits 3:2 (R24). -/
def statusErr (v : BitVec 8) : BitVec 2 := v.extractLsb' 2 2
/-- `STATUS.PFAULT`, bit 4 (R24). -/
def statusPfault (v : BitVec 8) : Bool := v.getLsbD 4
/-- The reserved bits 7:5 of STATUS (R24). -/
def statusReserved (v : BitVec 8) : BitVec 3 := v.extractLsb' 5 3

/-- Result codes of STATUS.ERR (R182). -/
def errOk : BitVec 2 := 0
def errCfg : BitVec 2 := 1
def errIllegalCmd : BitVec 2 := 2

/-- STATUS from its fields (R24). -/
def packStatus (reserved : BitVec 3) (pfault : Bool) (err : BitVec 2) (done busy : Bool) : BitVec 8 :=
  reserved ++ BitVec.ofBool pfault ++ err ++ BitVec.ofBool done ++ BitVec.ofBool busy

def setBusy (b : Bool) (v : BitVec 8) : BitVec 8 :=
  packStatus (statusReserved v) (statusPfault v) (statusErr v) (statusDone v) b
def setDone (b : Bool) (v : BitVec 8) : BitVec 8 :=
  packStatus (statusReserved v) (statusPfault v) (statusErr v) b (statusBusy v)
def setErr (e : BitVec 2) (v : BitVec 8) : BitVec 8 :=
  packStatus (statusReserved v) (statusPfault v) e (statusDone v) (statusBusy v)
/-- PFAULT is only ever set; block reset alone clears it (R32). -/
def setPfault (v : BitVec 8) : BitVec 8 :=
  packStatus (statusReserved v) true (statusErr v) (statusDone v) (statusBusy v)

/-! ### CONFIG -/

/-- `CONFIG.RES14`, bit 0 (R21). -/
def configRes14 (v : BitVec 8) : Bool := v.getLsbD 0
/-- The reserved bits 7:1 of CONFIG (R21). -/
def configReserved (v : BitVec 8) : BitVec 7 := v.extractLsb' 1 7
def setRes14 (b : Bool) (v : BitVec 8) : BitVec 8 := configReserved v ++ BitVec.ofBool b

/-! ### Views of a state -/

def State.busy (s : State) : Bool := statusBusy s.status
def State.done (s : State) : Bool := statusDone s.status
def State.err (s : State) : BitVec 2 := statusErr s.status
def State.pfault (s : State) : Bool := statusPfault s.status

/-- `RES = (CONFIG.RES14 == 1) ? 14 : 12` (R22). -/
def State.res (s : State) : Resolution := if configRes14 s.config then .bits14 else .bits12

/-- The pin `CS_N = ~CS_ACT` (R25). -/
def State.csN (s : State) : Bool := !s.csAct

end Sys2Proof.Machine
end

