-- ==== Sys2Proof/Syntax.lean ====
section
/-! DEFINITION. The instructions: one constructor per row of spec/opcode_table.json. -/

namespace Sys2Proof

/-- The four host commands (R71) and the three wire command bytes (R80). -/
inductive Instr where
  /-- READ_POSITION (R120). -/
  | readPosition
  /-- SET_ZERO (R150). -/
  | setZero
  /-- RESET_DEVICE (R151): the device's soft reset, not block reset. -/
  | resetDevice
  /-- SET_RESOLUTION (R170); `bits` is the requested number of bits itself (R72), legal or not (R74). -/
  | setResolution (bits : Nat)
  /-- WIRE_NOP, the octet 0x00 (R80). -/
  | wireNop
  /-- WIRE_RESET, the octet 0x60 (R80). -/
  | wireReset
  /-- WIRE_ZERO, the octet 0x70 (R80). -/
  | wireZero
  deriving DecidableEq, Repr

end Sys2Proof
end

