-- ==== Sys2Proof/WellFormed.lean ====
section
/-! DEFINITION. Which instruction terms have an encoding. -/

namespace Sys2Proof

/-- `ARG` is an unsigned 8-bit field (R72, R85: "a decimal number 0..255"); no other row has an operand. A `bits`
other than 12 and 14 is well formed: it decodes, and the command itself rejects it (R74). -/
def Instr.wellFormed : Instr → Bool
  | .setResolution bits => decide (bits < 256)
  | .readPosition | .setZero | .resetDevice | .wireNop | .wireReset | .wireZero => true

/-- The check as a proposition. -/
abbrev Instr.WellFormed (i : Instr) : Prop := i.wellFormed = true

end Sys2Proof
end

