-- ==== Sys2Proof/Decode.lean ====
section
/-! DEFINITION. The decoder, total on every command word (R76) and on every octet (R80), rejecting by name, and the
encoder written from the same tables. -/

namespace Sys2Proof

/-! ### The tables -/

/-- Operation codes of R71. -/
def opReadPosition : BitVec 8 := 0x01
def opSetZero : BitVec 8 := 0x02
def opResetDevice : BitVec 8 := 0x03
def opSetResolution : BitVec 8 := 0x04

/-- Wire command bytes of R80. -/
def octetNop : Octet := 0x00
def octetReset : Octet := 0x60
def octetZero : Octet := 0x70

/-- A command word from its two fields: `OP` in bits 15:8 and `ARG` in bits 7:0 (R70). -/
def commandWord (op arg : BitVec 8) : Word := op ++ arg

/-- `OP`, bits 15:8 (R70). -/
def opField (cmd : Word) : BitVec 8 := cmd.extractLsb' 8 8

/-- `ARG`, bits 7:0 (R70). -/
def argField (cmd : Word) : BitVec 8 := cmd.extractLsb' 0 8

/-! ### Decoding -/

/-- Why a code is no instruction. -/
inductive DecodeReject where
  /-- An illegal command word whose `OP` is 0x00 or 0x05..0xFF (R73, first case; R75). -/
  | reservedOp (op : BitVec 8)
  /-- An illegal command word: `OP` is 0x01, 0x02 or 0x03 and `ARG` is not 0x00 (R73, second case). -/
  | argNotZero (op arg : BitVec 8)
  /-- An octet that is no wire command byte (R80). -/
  | octetNeverSent (b : Octet)
  deriving DecidableEq, Repr

/-- A command whose `ARG` must be 0x00 (R71, R73). -/
def withoutArg (i : Instr) (op arg : BitVec 8) : Except DecodeReject Instr :=
  if arg = 0 then .ok i else .error (.argNotZero op arg)

/-- `decode(CMD)` of R76, on all 65,536 words. -/
def decodeCommand (cmd : Word) : Except DecodeReject Instr :=
  let op := opField cmd
  let arg := argField cmd
  if op = opReadPosition then withoutArg .readPosition op arg
  else if op = opSetZero then withoutArg .setZero op arg
  else if op = opResetDevice then withoutArg .resetDevice op arg
  else if op = opSetResolution then .ok (.setResolution arg.toNat)
  else .error (.reservedOp op)

/-- The wire command bytes (R80); the block sends no other octet. -/
def decodeOctet (b : Octet) : Except DecodeReject Instr :=
  if b = octetNop then .ok .wireNop
  else if b = octetReset then .ok .wireReset
  else if b = octetZero then .ok .wireZero
  else .error (.octetNeverSent b)

/-- Both formats together. -/
def decode : Code → Except DecodeReject Instr
  | .command w => decodeCommand w
  | .octet b => decodeOctet b

/-- The decoder on the opcode table's numbering: 16 bits are a command word, 8 bits a wire octet (the words are
parallel, bit `i` = bit `i`, R54); no row has another width (R86). -/
def decodeTableWord (nbits w : Nat) : Option Instr :=
  if nbits = 16 then (decode (.command (BitVec.ofNat 16 w))).toOption
  else if nbits = 8 then (decode (.octet (BitVec.ofNat 8 w))).toOption
  else none

/-! ### Encoding -/

/-- The word or octet of a well-formed instruction (R71, R72, R80). -/
def encode : Instr → Code
  | .readPosition => .command (commandWord opReadPosition 0)
  | .setZero => .command (commandWord opSetZero 0)
  | .resetDevice => .command (commandWord opResetDevice 0)
  | .setResolution bits => .command (commandWord opSetResolution (BitVec.ofNat 8 bits))
  | .wireNop => .octet octetNop
  | .wireReset => .octet octetReset
  | .wireZero => .octet octetZero

end Sys2Proof
end

