-- ==== Sys2Proof/Machine/Program.lean ====
section
/-! DEFINITION. The micro-operations and the three fixed micro-programs (R81 to R84, R100): constants, no state (R62). -/

namespace Sys2Proof.Machine

/-- Where an XFER stores the received octet (R81, R103). -/
inductive Dst where
  | hi
  | lo
  | none
  deriving DecidableEq, Repr

/-- The seven micro-operations of R81. -/
inductive MicroOp where
  | csa
  | csr
  | wus (n : Nat)
  | wms (n : Nat)
  | xfer (tx : Octet) (dst : Dst)
  | finr
  | fin
  deriving DecidableEq, Repr

/-- The macro `EXCH(tx, rel, dst)` of R81 and R100. -/
def exch (tx : Octet) (rel : Bool) (dst : Dst) : List MicroOp :=
  [.csa, .wus Config.tCsSetup, .xfer tx dst, .wus Config.tCsHold, if rel then .csr else .csa]

/-- READ (R82). -/
def readProgram : List MicroOp :=
  exch octetNop false .hi ++ [.wus Config.tGap] ++ exch octetNop true .lo ++ [.finr]

/-- ZERO (R83). -/
def zeroProgram : List MicroOp :=
  exch octetNop false .none ++ [.wus Config.tGap] ++ exch octetZero true .none ++ [.wms Config.tSettleZero, .fin]

/-- RSTD (R84). -/
def rstdProgram : List MicroOp :=
  exch octetNop false .none ++ [.wus Config.tGap] ++ exch octetReset true .none ++ [.wms Config.tSettleReset, .fin]

/-- The micro-program that a value of `PROG` names; NONE names none (R27). -/
def program : Prog → List MicroOp
  | .none => []
  | .read => readProgram
  | .zero => zeroProgram
  | .rstd => rstdProgram

/-- `program(PROG)[IDX]` of R110. -/
def microOpAt (q : Seq) : Option MicroOp := (program q.prog)[q.idx.toNat]?

end Sys2Proof.Machine
end

