-- ==== Sys2Proof/Machine/Operands.lean ====
section
/-! DEFINITION. The operand forms: the resolution operand of SET_RESOLUTION, the destination of an exchange, and the
register numbers of the readout. -/

namespace Sys2Proof.Machine

/-- The legal values of SET_RESOLUTION's operand, the number of bits itself (R71, R72): 12 and 14. -/
def resolutionOfBits (bits : Nat) : Option Resolution :=
  if bits = 12 then some .bits12 else if bits = 14 then some .bits14 else none

/-- `CONFIG.RES14` for a resolution (R21, R170). -/
def res14Of : Resolution → Bool
  | .bits12 => false
  | .bits14 => true

/-- Where the XFER that stands at `q` and sends `tx` stores what it receives; none where no such XFER stands
there (R80 to R84). -/
def exchangeDst (tx : Octet) (q : Seq) : Option Dst :=
  match microOpAt q with
  | some (.xfer tx' dst) => if tx' = tx then some dst else none
  | _ => none

/-- Storing a received octet (R103): HI writes ACC[15:8] and clears ACC[7:0] (R121), LO ORs it into ACC (R122), NONE
discards it (R152). DEDUCED (log entry 4): ORing into an ACC that holds no value leaves it without one, since FINR alone
reads ACC (R26). -/
def storeOctet (dst : Dst) (rx : Octet) (acc : Option Word) : Option Word :=
  match dst with
  | .hi => some (rx.setWidth 16 <<< 8)
  | .lo => acc.map (· ||| rx.setWidth 16)
  | .none => acc

/-- The register that a number names (R20, R64): whole, and unchanged by being read (R34, R56). -/
def readoutOf (n : Nat) (s : State) : Option Readout :=
  match n with
  | 0 => some (.result s.result)
  | 1 => some (.status s.status)
  | 2 => some (.config s.config)
  | _ => none

end Sys2Proof.Machine
end

