-- ==== Sys2Proof/Machine/Ops.lean ====
section
/-! DEFINITION. The named operations that the meanings are made of: recording an event, moving the line, accepting,
dropping, rejecting and finishing a command, an exchange, a timed wait, block reset.

The block has no trap (R186): nothing saves a pc or a mode, and nothing returns. What it has in a trap's place is one
shared operation, `rejectWith`: the pseudocode's `raise`, which records a result code in STATUS. -/

namespace Sys2Proof.Machine

/-- What a step of this machine answers. -/
abbrev Answer := Host.Outcome State Fault Refusal

/-- Record one event of R109. -/
def record (e : Event) (s : State) : State := { s with trace := s.trace ++ [e] }

/-- `IDX <- IDX + 1` (R27). -/
def advance (s : State) : State := { s with seq := { s.seq with idx := s.seq.idx + 1 } }

/-- `SetCS(a)` and the end of the micro-operation (R101, R102); the event is recorded whether or not the pin changes. -/
def setCs (a : Bool) (s : State) : State := record (.cs a) (advance { s with csAct := a })

/-! ### The environment's move in this step -/

/-- What the environment does in this step; a schedule at its end is a silent environment (log entry 1). -/
def State.move (s : State) : Move := s.schedule.head?.getD .quiet

/-- The environment's move has been taken. -/
def endMove (s : State) : State := { s with schedule := s.schedule.tail }

/-- Take the environment's move away after an answer. -/
def thenEndMove : Answer → Answer
  | .next s => .next (endMove s)
  | .fault f => .fault f
  | .refused r => .refused r

/-! ### Commands -/

/-- Acceptance, common to every word presented while BUSY = 0: DONE and ERR are cleared (R30, R31). -/
def beginCommand (cmd : Word) (s : State) : State :=
  record (.accept cmd) { s with status := setErr errOk (setDone false s.status) }

/-- A word presented while BUSY = 1 (R185): PFAULT and nothing else. -/
def dropCommand (cmd : Word) (s : State) : State :=
  record (.drop cmd) { s with status := setPfault s.status }

/-- A command word meets the busy check before anything else (R188). -/
def onCommand (cmd : Word) (accepted : State → State) (s : State) : Answer :=
  if s.busy then .next (dropCommand cmd s) else .next (accepted (beginCommand cmd s))

/-- A bus command starts its micro-program (R27, R29, R120, R150, R151). -/
def startProgram (p : Prog) (s : State) : State :=
  { s with status := setBusy true s.status, seq := ⟨p, 0⟩ }

/-- A command that finishes in its acceptance step writes ERR and DONE (R30, R31, R170, R184). -/
def completeWith (code : BitVec 2) (s : State) : State :=
  let status := setDone true (setErr code s.status)
  record (.done status s.result) { s with status := status }

/-- `raise <Error>`: the command is rejected, STATUS records the code, nothing else changes (R183, R184, R186). -/
def rejectWith (code : BitVec 2) (s : State) : State := completeWith code s

/-- The end of a bus command (R105, R128): idle, BUSY 0, DONE 1, ERR OK, in one step. -/
def finishProgram (s : State) : State :=
  let status := setErr errOk (setDone true (setBusy false s.status))
  record (.done status s.result) { s with status := status, seq := ⟨.none, 0⟩ }

/-! ### External requests -/

/-- The issue phase (R28, R103, R104). -/
def issue (r : Request) (s : State) : State := { s with pend := some r }

/-- A timed wait (R104): issue it; then stay until the timer agent signals. -/
def timedWait (r : Request) (elapsed : Event) (s : State) : State :=
  match s.pend with
  | none => issue r s
  | some r' =>
    if r' = r ∧ s.move = .timerElapsed then record elapsed (advance { s with pend := none }) else s

/-- The answer phase of an exchange (R103): store the octet as the micro-operation says, and go on. -/
def takeOctet (tx : Octet) (dst : Dst) (rx : Octet) (s : State) : State :=
  record (.xfer tx rx) (advance { s with acc := storeOctet dst rx s.acc, pend := none })

/-- One octet exchange (R103), the meaning of a wire command byte: issue the request; then stay until the bus agent
answers. The destination is the one that the XFER standing at SEQ names (log entry 6). -/
def exchangeOctet (tx : Octet) (s : State) : Answer :=
  match exchangeDst tx s.seq with
  | none => .refused (.octetNotSentHere tx s.seq)
  | some dst =>
    match s.pend with
    | none => .next (issue (.xfer tx) s)
    | some r =>
      match s.move with
      | .busAnswer rx => if r = .xfer tx then .next (takeOctet tx dst rx s) else .next s
      | _ => .next s

/-! ### Block reset -/

/-- Block reset (R210, R212): every piece of the spec's state takes its value of R35, whatever was running. What is
no state of the block's goes on: the parameter, the free values drawn, the environment, the observation. The sticky fault of
U14 ends, as PFAULT does (R196). -/
def blockReset (s : State) : State :=
  record .reset
    { State.resetOf s.initRes with
      draws := s.draws, schedule := s.schedule, trace := s.trace, readouts := s.readouts }

end Sys2Proof.Machine
end

