-- ==== Sys2Proof/Machine/Configuration.lean ====
section
/-! DEFINITION. SET_RESOLUTION (43_configuration.md). -/

namespace Sys2Proof.Machine

/-- The effect of an accepted SET_RESOLUTION (R170): a legal number of bits writes CONFIG.RES14, any other is rejected
with CFG_ERR and leaves CONFIG alone (R171). -/
def configure (bits : Nat) (s : State) : State :=
  match resolutionOfBits bits with
  | some r => completeWith errOk { s with config := setRes14 (res14Of r) s.config }
  | none => rejectWith errCfg s

/-- SET_RESOLUTION (R170): acceptance and completion are one step; BUSY is never set. -/
def execSetResolution (bits : Nat) (s : State) : Answer :=
  onCommand (commandWord opSetResolution (BitVec.ofNat 8 bits)) (configure bits) s

end Sys2Proof.Machine
end

