-- ==== Sys2Proof/Machine/Device.lean ====
section
/-! DEFINITION. SET_ZERO and RESET_DEVICE (42_device_commands.md). -/

namespace Sys2Proof.Machine

/-- SET_ZERO (R150). -/
def execSetZero (s : State) : Answer :=
  onCommand (commandWord opSetZero 0) (startProgram .zero) s

/-- RESET_DEVICE (R151): the device's soft reset; it does not reset the block (R156). -/
def execResetDevice (s : State) : Answer :=
  onCommand (commandWord opResetDevice 0) (startProgram .rstd) s

/-- FIN (R105): finish without touching RESULT; ERR is OK always (R155). -/
def fin (s : State) : Answer := .next (finishProgram s)

end Sys2Proof.Machine
end

