-- ==== Sys2Proof/Machine/Position.lean ====
section
/-! DEFINITION. READ_POSITION, the parity validator and the bit-width normalizer (41_position_read.md). -/

namespace Sys2Proof.Machine

/-! ### Masks and constants (R78) -/

def cbMask : Word := 0xC000
def posMask : Word := 0x3FFF
def sentinel : Word := 0xFFFF
def oddMask : Word := 0x2AAA
def evenMask : Word := 0x1555

/-! ### Parity validator -/

/-- `odd_x` of R123. -/
def oddX (raw : Word) : Bool :=
  raw.getLsbD 13 ^^ raw.getLsbD 11 ^^ raw.getLsbD 9 ^^ raw.getLsbD 7 ^^ raw.getLsbD 5 ^^ raw.getLsbD 3 ^^ raw.getLsbD 1

/-- `even_x` of R123. -/
def evenX (raw : Word) : Bool :=
  raw.getLsbD 12 ^^ raw.getLsbD 10 ^^ raw.getLsbD 8 ^^ raw.getLsbD 6 ^^ raw.getLsbD 4 ^^ raw.getLsbD 2 ^^ raw.getLsbD 0

/-- `ok_odd`: the checkbit CB_ODD, bit 15, is the negation of `odd_x` (R77, R123). -/
def okOdd (raw : Word) : Bool := raw.getLsbD 15 == !oddX raw

/-- `ok_even`: the checkbit CB_EVEN, bit 14, is the negation of `even_x` (R77, R123). -/
def okEven (raw : Word) : Bool := raw.getLsbD 14 == !evenX raw

/-- The validator `chk` (R123): both checkbits are valid. -/
def chk (raw : Word) : Bool := okOdd raw && okEven raw

/-! ### Normalizer and result -/

/-- `MAG`, bits 13:0 of the frame (R77, R125). -/
def magnitude (raw : Word) : BitVec 14 := (raw &&& posMask).setWidth 14

/-- The normalizer `norm` (R127): a logical shift (R131). -/
def normWidth (mag : BitVec 14) : Resolution → Word
  | .bits12 => (mag >>> 2).setWidth 16
  | .bits14 => mag.setWidth 16

/-- `pos(raw, res)` (R128): the normalized magnitude of a valid frame, else the sentinel (R126). -/
def pos (raw : Word) (res : Resolution) : Word :=
  if chk raw then normWidth (magnitude raw) res else sentinel

/-- `enc(p)` (R132): the valid frame of a magnitude. -/
def enc (p : BitVec 14) : Word :=
  BitVec.ofBool (!oddX (p.setWidth 16)) ++ BitVec.ofBool (!evenX (p.setWidth 16)) ++ p

/-- `xor_reduce(v)` (00_scope.md section 5), for the mask forms of R123 and R124. -/
def xorReduce (v : Word) : Bool := (List.range 16).foldl (fun b i => b ^^ v.getLsbD i) false

/-- `popcount(v)` (00_scope.md section 5), for R124. -/
def popcount (v : Word) : Nat := (List.range 16).countP (fun i => v.getLsbD i)

/-! ### Micro-operation and command -/

/-- The frame that FINR reads: ACC, or a free value where ACC holds none (log entry 20). -/
def State.frame (s : State) : Word := s.acc.getD (Config.unwrittenFrame s.draws)

/-- `RESULT <- pos(ACC, RES)` (R128). Reading an ACC that holds no value is the sticky model fault of U14 (R26, R35); ACC still
holds no value after it. -/
def writePosition (s : State) : State :=
  { s with
    result := pos s.frame s.res
    accFault := s.accFault || s.acc.isNone
    draws := s.draws + if s.acc.isNone then 1 else 0 }

/-- FINR (R128): RESULT from ACC and RES, and the finish, in one step (R57). It raises nothing, and the block never halts
(R180). -/
def finr (s : State) : Answer := .next (finishProgram (writePosition s))

/-- READ_POSITION (R120). -/
def execReadPosition (s : State) : Answer :=
  onCommand (commandWord opReadPosition 0) (startProgram .read) s

end Sys2Proof.Machine
end

