-- ==== Sys2Proof/Machine/Wire.lean ====
section
/-! DEFINITION. The three wire command bytes (R58, R80): each is the exchange of its octet (R103) by the XFER that
stands at SEQ. -/

namespace Sys2Proof.Machine

/-- WIRE_NOP (R80): the octet of the position read phase, sent by every program. -/
def execWireNop (s : State) : Answer := exchangeOctet octetNop s

/-- WIRE_RESET (R80): the soft-reset octet, sent by RSTD (R84). -/
def execWireReset (s : State) : Answer := exchangeOctet octetReset s

/-- WIRE_ZERO (R80): the set-zero octet, sent by ZERO (R83). -/
def execWireZero (s : State) : Answer := exchangeOctet octetZero s

end Sys2Proof.Machine
end

