-- ==== Sys2Proof/Machine/Dispatch.lean ====
section
/-! DEFINITION. One arm per instruction. -/

namespace Sys2Proof.Machine

def exec (i : Instr) (s : State) : Host.Outcome State Fault Refusal :=
  match i with
  | .readPosition => Sys2Proof.Machine.execReadPosition s
  | .setZero => Sys2Proof.Machine.execSetZero s
  | .resetDevice => Sys2Proof.Machine.execResetDevice s
  | .setResolution bits => Sys2Proof.Machine.execSetResolution bits s
  | .wireNop => Sys2Proof.Machine.execWireNop s
  | .wireReset => Sys2Proof.Machine.execWireReset s
  | .wireZero => Sys2Proof.Machine.execWireZero s

end Sys2Proof.Machine
end

