-- ==== Sys2Proof/Machine/Sequencer.lean ====
section
/-! DEFINITION. What the block does with each move of the environment: the sequencer's turn (R110), the command port
(R188), the register readout (R34), and how an instruction is placed for the next step. -/

namespace Sys2Proof.Machine

/-- One micro-operation (R110). An XFER runs the instruction that its octet is. -/
def runMicroOp (op : MicroOp) (s : State) : Answer :=
  match op with
  | .csa => .next (setCs true s)
  | .csr => .next (setCs false s)
  | .wus n => .next (timedWait (.wus n) (.waitUs n) s)
  | .wms n => .next (timedWait (.wms n) (.waitMs n) s)
  | .xfer tx _ =>
    match decodeOctet tx with
    | .ok i => exec i s
    | .error _ => .refused (.octetNotSentHere tx s.seq)
  | .finr => finr s
  | .fin => fin s

/-- The sequencer's turn (R110): idle, it has no step and the state stays; else it runs the micro-operation at SEQ. An
agent's answer that no request waits for changes nothing (R212; log entry 7). -/
def sequencerTurn (s : State) : Answer :=
  if s.seq.prog = .none then .next s
  else
    match microOpAt s.seq with
    | some op => runMicroOp op s
    | none => .fault (.noMicroOperation s.seq)

/-- The command port: the priority of R188. While BUSY = 1 the word is not decoded. -/
def presentCommand (cmd : Word) (s : State) : Answer :=
  if s.busy then .next (dropCommand cmd s)
  else
    match decodeCommand cmd with
    | .ok i => exec i s
    | .error _ => .next (rejectWith errIllegalCmd (beginCommand cmd s))

/-- A register readout: it changes nothing of the block (R34); numbers of 3 and up are refused (R64). -/
def readRegister (n : Nat) (s : State) : Answer :=
  match readoutOf n s with
  | some v => .next { s with readouts := s.readouts ++ [v] }
  | none => .refused (.noSuchRegister n)

/-- What the block does in one step, by what the environment does in it. A block reset is taken whatever the block is
doing (R210). -/
def react (s : State) : Answer :=
  match s.move with
  | .blockReset => .next (blockReset s)
  | .present cmd => presentCommand cmd s
  | .readRegister n => readRegister n s
  | .quiet | .busAnswer _ | .timerElapsed => sequencerTurn s

/-! ### Placing an instruction -/

/-- The block waits for a command (R211) and the host presents `cmd` next. -/
def placeCommand (cmd : Word) (s : State) : State :=
  { s with
    schedule := .present cmd :: s.schedule
    status := setBusy false s.status
    seq := ⟨.none, 0⟩
    pend := none
    csAct := false }

/-- The first exchange of a micro-program that sends `b` (R82 to R84). -/
def exchangePosition (b : Octet) : Seq :=
  if b = octetReset then ⟨.rstd, 8⟩ else if b = octetZero then ⟨.zero, 8⟩ else ⟨.read, 2⟩

/-- The block stands before the exchange of `b`, busy and with the line active (R107), and the sequencer moves next. -/
def placeOctet (b : Octet) (s : State) : State :=
  { s with
    schedule := .quiet :: s.schedule
    status := setBusy true s.status
    seq := exchangePosition b
    pend := none
    csAct := true }

end Sys2Proof.Machine
end

