-- ==== Sys2Proof/Machine/Step.lean ====
section
/-! DEFINITION. One step of the machine, and the instruction that the next step runs. -/

namespace Sys2Proof.Machine

/-- One step: the block's reaction to the environment's move, which is then used up (log entry 1). -/
def step (s : State) : Host.Outcome State Fault Refusal := thenEndMove (react s)

/-- `s` with an instruction where the next step takes it from: a command word at the command port, a wire octet at the
XFER that sends it. The block loads no program; the host presents words (log entry 10). -/
def State.withFetchWord (s : State) (nbits w : Nat) : State :=
  if nbits = 8 then placeOctet (BitVec.ofNat 8 w) s else placeCommand (BitVec.ofNat 16 w) s

end Sys2Proof.Machine
end

