-- ==== Sys2Proof/Assembly.lean ====
section
/-! DEFINITION. The syntax of command programs (R85), as terms with their text and their word. -/

namespace Sys2Proof

/-- What one line names: one of the four commands, or any raw word. -/
inductive AsmItem where
  | instr (i : Instr)
  | raw (w : Word)
  deriving DecidableEq, Repr

/-- One line of a command program with its annotations (R85): `@rx` gives the octets the bus agent returns, `@busy` says
that the host presents the word while BUSY = 1. -/
structure AsmLine where
  item : AsmItem
  rx : List Octet := []
  busy : Bool := false
  deriving DecidableEq, Repr

/-- The command word of a line; a wire octet is no command and has no line of its own. -/
def AsmLine.word (l : AsmLine) : Option Word :=
  match l.item with
  | .raw w => some w
  | .instr i =>
    match encode i with
    | .command w => some w
    | .octet _ => none

/-- One hexadecimal digit. -/
def hexDigit (n : Nat) : String := String.singleton (Nat.digitChar (n % 16))

/-- The text of a line, without its comment and annotations (R85). -/
def AsmLine.text (l : AsmLine) : Option String :=
  match l.item with
  | .instr .readPosition => some "READ_POSITION"
  | .instr .setZero => some "SET_ZERO"
  | .instr .resetDevice => some "RESET_DEVICE"
  | .instr (.setResolution bits) => some ("SET_RESOLUTION " ++ toString bits)
  | .instr .wireNop | .instr .wireReset | .instr .wireZero => none
  | .raw w =>
    some (".word 0x" ++ hexDigit (w.toNat / 4096) ++ hexDigit (w.toNat / 256) ++ hexDigit (w.toNat / 16) ++ hexDigit w.toNat)

end Sys2Proof
end

