-- ==== Sys2Proof/Safety.lean ====
section
/-! DEFINITION. What counts as a safe run, in the terms that claims use: the invariant of the block, final, waiting and
faulted states (R110, R195, R224), the pin and the waits as functions of the trace (R107, R109, R222), and an environment
that answers every request (R223). -/

namespace Sys2Proof.Machine

/-! ### Classes of states -/

/-- The sequencer stands idle: `PROG = NONE` (R27). -/
abbrev State.Idle (s : State) : Prop := s.seq.prog = .none

/-- The two sticky modelling faults: a command came while BUSY = 1 (R195, U1; log entry 8), or ACC was read while it held no
value (U14; log entry 20). The block goes on all the same, and no claim is made about such a run. -/
abbrev State.Faulted (s : State) : Prop := s.pfault = true ∨ s.accFault = true

/-- Whether a move presents a command word. -/
def Move.presents : Move → Bool
  | .present _ => true
  | .quiet | .readRegister _ | .blockReset | .busAnswer _ | .timerElapsed => false

/-- Whether a move is the host's (R223): a command, a readout or a block reset. -/
def Move.ofHost : Move → Bool
  | .present _ | .readRegister _ | .blockReset => true
  | .quiet | .busAnswer _ | .timerElapsed => false

/-- Whether a move is a register readout (R34). -/
def Move.isReadout : Move → Bool
  | .readRegister _ => true
  | .quiet | .present _ | .blockReset | .busAnswer _ | .timerElapsed => false

/-- The end of a run (R224): the last command has been presented, `PROG = NONE` and `PEND = none`. -/
abbrev State.Final (s : State) : Prop :=
  s.schedule.all (fun m => !m.presents) = true ∧ s.Idle ∧ s.pend = none

/-- The host does nothing in this step: the sequencer has its turn (R110), with or without an agent's answer. -/
abbrev State.HostSilent (s : State) : Prop :=
  s.move = .quiet ∨ s.move = .timerElapsed ∨ ∃ rx, s.move = .busAnswer rx

/-- The request that a micro-operation makes of an external agent (R28). -/
def requestOf : MicroOp → Option Request
  | .wus n => some (.wus n)
  | .wms n => some (.wms n)
  | .xfer tx _ => some (.xfer tx)
  | .csa | .csr | .finr | .fin => none

/-- Whether a move answers a request: an octet answers an exchange (R103), the timer's signal a wait (R104). -/
def answers (r : Request) (m : Move) : Bool :=
  match r, m with
  | .xfer _, .busAnswer _ => true
  | .wus _, .timerElapsed => true
  | .wms _, .timerElapsed => true
  | _, _ => false

/-- An environment that never answers `r` and never resets the block: a run under it is stuck (R187). -/
def neverAnswers (r : Request) (moves : List Move) : Bool :=
  moves.all (fun m => !answers r m && m != .blockReset)

/-- No move reads a register number that names no register (R64). -/
def readsKnownRegisters (m : Move) : Bool :=
  match m with
  | .readRegister n => decide (n < 3)
  | _ => true

/-! ### The invariant -/

/-- The level of the line before the micro-operation at `q` runs (R107): active from the first CSA's end to the CSR. -/
def lineAt (q : Seq) : Bool :=
  match q.prog with
  | .none => false
  | .read | .zero | .rstd => decide (1 ≤ q.idx ∧ q.idx ≤ 10)

/-- What holds of the block between any two steps. -/
structure State.Inv (s : State) : Prop where
  /-- `BUSY = 1` exactly when `PROG ≠ NONE` (R29). -/
  busy_iff : s.busy = true ↔ s.seq.prog ≠ .none
  /-- The idle state holds IDX at 0 (R27). -/
  idle_idx : s.seq.prog = .none → s.seq.idx = 0
  /-- IDX names a micro-operation of the running program (R27). -/
  in_program : s.seq.prog ≠ .none → (microOpAt s.seq).isSome = true
  /-- The outstanding request is that of the micro-operation at SEQ (R28); idle, there is none. -/
  pend_at : ∀ r, s.pend = some r → ∃ op, microOpAt s.seq = some op ∧ requestOf op = some r
  /-- The line follows the program position (R107, R211). -/
  line : s.csAct = lineAt s.seq
  /-- The reserved bits of STATUS read 0 (R24). -/
  status_reserved : statusReserved s.status = 0
  /-- ERR code 3 is never produced (R24, R182). -/
  err_code : s.err ≠ 3
  /-- While a bus command runs, DONE and ERR stay as its acceptance left them (R30, R31). -/
  busy_status : s.busy = true → s.done = false ∧ s.err = errOk
  /-- The reserved bits of CONFIG read 0 (R21). -/
  config_reserved : configReserved s.config = 0
  /-- RESULT is a magnitude of at most 14 bits or the sentinel (R23). -/
  result_range : s.result = sentinel ∨ s.result.toNat ≤ 0x3FFF
  /-- ACC is written before READ reads it, and its low byte is 0 until the second octet (R26, R103, R121). -/
  acc_written : s.seq.prog = .read → 3 ≤ s.seq.idx →
    ∃ a, s.acc = some a ∧ (s.seq.idx ≤ 8 → a.setWidth 8 = (0 : BitVec 8))

/-! ### The pin and the waits of a trace -/

/-- The level of CS_ACT after an event (R109): each `cs` event and each reset sets it. -/
def lineAfter (level : Bool) : Event → Bool
  | .cs a => a
  | .reset => false
  | .accept _ | .drop _ | .waitUs _ | .waitMs _ | .xfer _ _ | .done _ _ => level

/-- The level of CS_ACT that a trace leaves: inactive before its first `cs` event (R109). -/
def traceLine (trace : List Event) : Bool := trace.foldl lineAfter false

/-- The edges of the line along a trace, oldest first: the new levels, repeats left out (R109's pin equivalence). -/
def lineEdges (level : Bool) : List Event → List Bool
  | [] => []
  | e :: es => if lineAfter level e = level then lineEdges level es else lineAfter level e :: lineEdges (lineAfter level e) es

/-- The microseconds waited for, at least, along a trace (R222). -/
def waitedUs : List Event → Nat
  | [] => 0
  | .waitUs n :: es => n + waitedUs es
  | _ :: es => waitedUs es

/-- The milliseconds waited for, at least, along a trace (R222). -/
def waitedMs : List Event → Nat
  | [] => 0
  | .waitMs n :: es => n + waitedMs es
  | _ :: es => waitedMs es

/-- The octet exchanges along a trace, oldest first. -/
def exchanges : List Event → List (Octet × Octet)
  | [] => []
  | .xfer tx rx :: es => (tx, rx) :: exchanges es
  | _ :: es => exchanges es

/-! ### A serving environment -/

/-- An environment that serves a micro-program (R223): it leaves the sequencer alone, answers the exchanges with the
octets `rxs` in turn, and lets every answer come late by a number of silent steps taken from `delays` (R104: over-wait is
allowed, without bound). Where a list runs out, octets are 0 and delays are 0. -/
def serve : List MicroOp → List Octet → List Nat → List Move
  | [], _, _ => []
  | op :: ops, rxs, delays =>
    match requestOf op with
    | none => .quiet :: serve ops rxs delays
    | some (.xfer _) =>
      .quiet :: (List.replicate (delays.headD 0) .quiet ++ .busAnswer (rxs.headD 0) :: serve ops rxs.tail delays.tail)
    | some (.wus _) | some (.wms _) =>
      .quiet :: (List.replicate (delays.headD 0) .quiet ++ .timerElapsed :: serve ops rxs delays.tail)

/-- What is left of a list of moves when the host's register readouts are taken out: the host may read at any time, without
side effect (R34, R223). -/
def withoutReadouts (moves : List Move) : List Move := moves.filter (fun m => !m.isReadout)

/-- The events that a micro-program records when its exchanges are answered by `rxs` in turn (R109); the final step's
`done` is not among them. -/
def eventsOf : List MicroOp → List Octet → List Event
  | [], _ => []
  | .csa :: ops, rxs => .cs true :: eventsOf ops rxs
  | .csr :: ops, rxs => .cs false :: eventsOf ops rxs
  | .wus n :: ops, rxs => .waitUs n :: eventsOf ops rxs
  | .wms n :: ops, rxs => .waitMs n :: eventsOf ops rxs
  | .xfer tx _ :: ops, rxs => .xfer tx (rxs.headD 0) :: eventsOf ops rxs.tail
  | .finr :: ops, rxs => eventsOf ops rxs
  | .fin :: ops, rxs => eventsOf ops rxs

end Sys2Proof.Machine
end

