-- ==== Sys2Proof/Certificates/Slice0/Obligations.lean ====
section
/-! DEFINITION. The statements for the provers. Each docstring names the rules of spec/ it formalises, or says that it is
derived. A state's environment is part of it (log entry 1), so "for every state" is also "for every octet the bus agent
may return and every order of the environment's moves". -/

open Sys2Proof Sys2Proof.Machine

/-! ### Reset -/

/-- R35: the value of every piece of state after block reset. -/
def Obligations.ResetHoldsTheSpecValues : Prop :=
  (configRes14 State.reset.config = true ↔ Config.initRes = .bits14) ∧
  configReserved State.reset.config = 0 ∧
  State.reset.result = 0xFFFF ∧
  State.reset.status = 0x00 ∧
  State.reset.acc = none ∧
  State.reset.seq = ⟨.none, 0⟩ ∧
  State.reset.csAct = false ∧ State.reset.csN = true ∧
  State.reset.pend = none

/-- Derived from R210 and R212: a block reset, whatever the block is doing, puts every piece of state to its value of R35 in that
step, for the instance's own INIT_RES, and the trace records it; nothing else clears PFAULT; and the answers that come late,
however many, change nothing until the host's next action. The model's choices in it: that a silent step leaves the same state
(log entries 2 and 7), that the parameter, the readouts and the rest of the schedule go on (log entry 14), and what becomes of
the model's fault bit and count of free values (log entry 20). -/
def Obligations.BlockResetFromEveryState : Prop :=
  (∀ s : State, s.move = .blockReset → ∃ t, step s = .next t ∧
    t.result = 0xFFFF ∧ t.status = 0x00 ∧ t.acc = none ∧ t.seq = ⟨.none, 0⟩ ∧ t.csAct = false ∧ t.csN = true ∧
    t.pend = none ∧ configReserved t.config = 0 ∧ (configRes14 t.config = true ↔ s.initRes = .bits14) ∧
    t.initRes = s.initRes ∧ t.trace = s.trace ++ [.reset] ∧ t.readouts = s.readouts ∧ t.schedule = s.schedule.tail ∧
    t.accFault = false ∧ t.draws = s.draws ∧
    ∀ n, (t.schedule.take n).all (fun m => !m.ofHost) = true →
      Sys2Proof.core.run n t = .next { t with schedule := t.schedule.drop n }) ∧
  ∀ s t : State, step s = .next t → s.pfault = true → t.pfault = false → s.move = .blockReset

/-- Derived from R110 and R212: an idle block takes no step of its own, and an answer that comes late, after a reset
withdrew its request, is ignored. What "no step" looks like here, the same state again, is the model's choice (log
entries 2 and 7). -/
def Obligations.IdleBlockIgnoresLateAnswers : Prop :=
  ∀ s : State, s.Idle → s.HostSilent →
    step s = .next { s with schedule := s.schedule.tail }

/-! ### Encodings -/

/-- Derived from R71, R73, R74 and R80: words written out, and what they decode to; four codes outside the tables (an OP of no
command, a nonzero ARG, a wire octet's value as a command word, an octet that is never sent) decode to none. -/
def Obligations.SpecWordsDecode : Prop :=
  decodeTableWord 16 0b0000000100000000 = some .readPosition ∧
  decodeTableWord 16 0b0000001000000000 = some .setZero ∧
  decodeTableWord 16 0b0000001100000000 = some .resetDevice ∧
  decodeTableWord 16 0b0000010000001100 = some (.setResolution 12) ∧
  decodeTableWord 16 0b0000010000001110 = some (.setResolution 14) ∧
  decodeTableWord 16 0b0000010011111111 = some (.setResolution 255) ∧
  decodeTableWord 16 0b0000010100000000 = none ∧
  decodeTableWord 16 0b0000000100000001 = none ∧
  decodeTableWord 16 0b0000000001100000 = none ∧
  decodeTableWord 8 0b00000000 = some .wireNop ∧
  decodeTableWord 8 0b01100000 = some .wireReset ∧
  decodeTableWord 8 0b01110000 = some .wireZero ∧
  decodeTableWord 8 0b00000001 = none

/-- R76: decoding of all 65,536 command words. -/
def Obligations.CommandWordsDecode : Prop :=
  ∀ cmd : Word,
    (cmd.extractLsb' 8 8 = 0x01 ∧ cmd.extractLsb' 0 8 = 0x00 → decodeCommand cmd = .ok .readPosition) ∧
    (cmd.extractLsb' 8 8 = 0x02 ∧ cmd.extractLsb' 0 8 = 0x00 → decodeCommand cmd = .ok .setZero) ∧
    (cmd.extractLsb' 8 8 = 0x03 ∧ cmd.extractLsb' 0 8 = 0x00 → decodeCommand cmd = .ok .resetDevice) ∧
    (cmd.extractLsb' 8 8 = 0x04 → decodeCommand cmd = .ok (.setResolution (cmd.extractLsb' 0 8).toNat)) ∧
    (¬ (cmd.extractLsb' 8 8 = 0x04) →
      ¬ ((cmd.extractLsb' 8 8 = 0x01 ∨ cmd.extractLsb' 8 8 = 0x02 ∨ cmd.extractLsb' 8 8 = 0x03) ∧
          cmd.extractLsb' 0 8 = 0x00) →
      ∃ why, decodeCommand cmd = .error why)

/-- Derived from R71, R72, R74, R76 and R80: every well-formed instruction is what its own word or octet decodes to. -/
def Obligations.DecodeOfEncode : Prop :=
  ∀ i : Instr, i.WellFormed → decode (encode i) = .ok i

/-- Derived from R71 to R76 and R80: what decodes is the encoding of the well-formed instruction it decodes to, so that
no two codes mean the same instruction. -/
def Obligations.EncodeOfDecode : Prop :=
  ∀ (c : Code) (i : Instr), decode c = .ok i → i.WellFormed ∧ encode i = c

/-! ### A step runs the decoded instruction -/

/-- Derived from R56, R76, R110 and R188: a command word presented while BUSY = 0 that decodes to `i` is run as `i`; around it
the step only uses up the environment's move. -/
def Obligations.StepRunsThePresentedCommand : Prop :=
  ∀ (s : State) (cmd : Word) (i : Instr), s.busy = false → s.move = .present cmd → decode (.command cmd) = .ok i →
    step s = thenEndMove (exec i s)

/-- Derived from R103 and R110: where the micro-operation at SEQ is the exchange of an octet that decodes to `i` and no
host acts, the step runs `i`. -/
def Obligations.StepRunsTheOctetAtSeq : Prop :=
  ∀ (s : State) (tx : Octet) (dst : Dst) (i : Instr), microOpAt s.seq = some (.xfer tx dst) → decode (.octet tx) = .ok i → s.HostSilent →
    step s = thenEndMove (exec i s)

/-- Derived from R211 and the opcode table (log entry 10): an instruction placed for the next step is run by it, whatever the
state was: a command word at the command port, a wire octet at an exchange that sends it. -/
def Obligations.PlacedInstructionRunsNext : Prop :=
  ∀ (s : State) (nbits w : Nat) (i : Instr), w < 2 ^ nbits → decodeTableWord nbits w = some i →
    step (s.withFetchWord nbits w) = thenEndMove (exec i (s.withFetchWord nbits w)) ∧
    ∃ t, step (s.withFetchWord nbits w) = .next t

/-! ### Host commands -/

/-- Derived from R27, R29, R30, R31 and the acceptance parts of R120, R150 and R151: READ_POSITION, SET_ZERO and RESET_DEVICE,
presented while BUSY = 0, start their micro-program at IDX 0 with BUSY 1, DONE 0 and ERR OK, and change nothing else but
the trace. -/
def Obligations.BusCommandsStartTheirProgram : Prop :=
  ∀ (s : State) (i : Instr) (p : Prog) (cmd : Word),
    (i, p, cmd) ∈ ([(.readPosition, .read, 0x0100), (.setZero, .zero, 0x0200), (.resetDevice, .rstd, 0x0300)] :
      List (Instr × Prog × Word)) →
    s.busy = false →
    ∃ st, exec i s = .next { s with status := st, seq := ⟨p, 0⟩, trace := s.trace ++ [.accept cmd] } ∧
      statusBusy st = true ∧ statusDone st = false ∧ statusErr st = 0 ∧ statusPfault st = s.pfault ∧
      statusReserved st = statusReserved s.status

/-- R170, R183: SET_RESOLUTION while BUSY = 0 finishes in its acceptance step: 12 and 14 write CONFIG.RES14 with ERR OK,
every other number is CFG_ERR with CONFIG unchanged; BUSY stays 0, DONE is 1, nothing else but the trace changes. While
BUSY = 1 the command is dropped and only PFAULT is set. -/
def Obligations.SetResolutionConfiguresOrRejects : Prop :=
  ∀ (s : State) (bits : Nat), bits < 256 →
    (s.busy = false →
      ∃ st cf, exec (.setResolution bits) s =
          .next { s with
            status := st
            config := cf
            trace := s.trace ++ [.accept (BitVec.ofNat 16 (0x0400 + bits)), .done st s.result] } ∧
        statusBusy st = false ∧ statusDone st = true ∧ statusPfault st = s.pfault ∧
        statusReserved st = statusReserved s.status ∧
        (bits = 12 → configRes14 cf = false ∧ configReserved cf = configReserved s.config ∧ statusErr st = 0) ∧
        (bits = 14 → configRes14 cf = true ∧ configReserved cf = configReserved s.config ∧ statusErr st = 0) ∧
        (bits ≠ 12 → bits ≠ 14 → cf = s.config ∧ statusErr st = 1)) ∧
    (s.busy = true →
      ∃ st, exec (.setResolution bits) s =
          .next { s with status := st, trace := s.trace ++ [.drop (BitVec.ofNat 16 (0x0400 + bits))] } ∧
        statusPfault st = true ∧ statusBusy st = true ∧ statusDone st = s.done ∧ statusErr st = s.err ∧
        statusReserved st = statusReserved s.status)

/-- R184: a word that decodes to no instruction, presented while BUSY = 0, is rejected in its acceptance step: ERR is 2,
DONE is 1, and nothing else changes. -/
def Obligations.IllegalWordIsRejected : Prop :=
  ∀ (s : State) (cmd : Word) (why : DecodeReject), s.busy = false → s.move = .present cmd → decodeCommand cmd = .error why →
    ∃ st, step s =
        .next { s with
          status := st
          schedule := s.schedule.tail
          trace := s.trace ++ [.accept cmd, .done st s.result] } ∧
      statusErr st = 2 ∧ statusDone st = true ∧ statusBusy st = false ∧ statusPfault st = s.pfault ∧
      statusReserved st = statusReserved s.status

/-- R185: any word presented while BUSY = 1, legal or not, sets PFAULT and is discarded; nothing else changes. -/
def Obligations.WordWhileBusyIsDropped : Prop :=
  ∀ (s : State) (cmd : Word), s.busy = true → s.move = .present cmd →
    ∃ st, step s = .next { s with status := st, schedule := s.schedule.tail, trace := s.trace ++ [.drop cmd] } ∧
      statusPfault st = true ∧ statusBusy st = true ∧ statusDone st = s.done ∧ statusErr st = s.err ∧
      statusReserved st = statusReserved s.status

/-- Derived from R120, R150, R151 and R185: the three bus commands, run while BUSY = 1, are dropped: only PFAULT is set. -/
def Obligations.BusCommandsWhileBusyAreDropped : Prop :=
  ∀ (s : State) (i : Instr) (cmd : Word),
    (i, cmd) ∈ ([(.readPosition, 0x0100), (.setZero, 0x0200), (.resetDevice, 0x0300)] : List (Instr × Word)) →
    s.busy = true →
    ∃ st, exec i s = .next { s with status := st, trace := s.trace ++ [.drop cmd] } ∧
      statusPfault st = true ∧ statusBusy st = true ∧ statusDone st = s.done ∧ statusErr st = s.err ∧
      statusReserved st = statusReserved s.status

/-! ### Wire octets and micro-operations -/

/-- Derived from R80 and the programs of R82 to R84: the only exchanges are those of NOP at IDX 2 of every program and at IDX 8 of READ,
of ZERO at IDX 8 of ZERO and of RESET at IDX 8 of RSTD, with the destinations HI and LO in READ and NONE elsewhere. -/
def Obligations.ProgramsSendOnlyTheWireBytes : Prop :=
  ∀ (q : Seq) (tx : Octet) (dst : Dst), microOpAt q = some (.xfer tx dst) ↔
    (q = ⟨.read, 2⟩ ∧ tx = 0x00 ∧ dst = .hi) ∨ (q = ⟨.read, 8⟩ ∧ tx = 0x00 ∧ dst = .lo) ∨
    (q = ⟨.zero, 2⟩ ∧ tx = 0x00 ∧ dst = .none) ∨ (q = ⟨.zero, 8⟩ ∧ tx = 0x70 ∧ dst = .none) ∨
    (q = ⟨.rstd, 2⟩ ∧ tx = 0x00 ∧ dst = .none) ∨ (q = ⟨.rstd, 8⟩ ∧ tx = 0x60 ∧ dst = .none)

/-- Derived from R28 and R103 (issue phase): a wire octet whose exchange stands at SEQ, with no request outstanding, becomes the
outstanding request; nothing else changes. -/
def Obligations.WireOctetsIssueTheirRequest : Prop :=
  ∀ (s : State) (i : Instr) (tx : Octet) (dst : Dst),
    (i, tx) ∈ ([(.wireNop, 0x00), (.wireReset, 0x60), (.wireZero, 0x70)] : List (Instr × Octet)) →
    microOpAt s.seq = some (.xfer tx dst) → s.pend = none →
    exec i s = .next { s with pend := some (.xfer tx) }

/-- Derived from R28, R103, R121, R122 and R152 (answer phase): the octet `rx` that the bus agent returns ends the request, IDX
goes on, and `rx` becomes ACC's high byte over a cleared low byte (HI), is ORed into ACC (LO) or is discarded (NONE). Nothing
else changes but the trace. That an ACC which holds no value holds none after the LO exchange either is the model's choice
(log entry 4). -/
def Obligations.WireOctetsTakeTheAnswer : Prop :=
  ∀ (s : State) (i : Instr) (tx rx : Octet) (dst : Dst),
    (i, tx) ∈ ([(.wireNop, 0x00), (.wireReset, 0x60), (.wireZero, 0x70)] : List (Instr × Octet)) →
    microOpAt s.seq = some (.xfer tx dst) → s.pend = some (.xfer tx) → s.move = .busAnswer rx →
    (dst = .hi →
      exec i s = .next { s with
        acc := some (rx ++ (0 : BitVec 8))
        pend := none
        seq := ⟨s.seq.prog, s.seq.idx + 1⟩
        trace := s.trace ++ [.xfer tx rx] }) ∧
    (dst = .lo → ∀ a, s.acc = some a →
      exec i s = .next { s with
        acc := some (a ||| rx.setWidth 16)
        pend := none
        seq := ⟨s.seq.prog, s.seq.idx + 1⟩
        trace := s.trace ++ [.xfer tx rx] }) ∧
    (dst = .lo → s.acc = none →
      exec i s = .next { s with
        pend := none
        seq := ⟨s.seq.prog, s.seq.idx + 1⟩
        trace := s.trace ++ [.xfer tx rx] }) ∧
    (dst = .none →
      exec i s = .next { s with
        pend := none
        seq := ⟨s.seq.prog, s.seq.idx + 1⟩
        trace := s.trace ++ [.xfer tx rx] })

/-- Derived from R103 and R187: while the bus agent does not answer the outstanding exchange, the instruction leaves the state as
it is. -/
def Obligations.WireOctetsWaitForTheBus : Prop :=
  ∀ (s : State) (i : Instr) (tx : Octet) (dst : Dst),
    (i, tx) ∈ ([(.wireNop, 0x00), (.wireReset, 0x60), (.wireZero, 0x70)] : List (Instr × Octet)) →
    microOpAt s.seq = some (.xfer tx dst) → s.pend = some (.xfer tx) → (∀ rx, s.move ≠ .busAnswer rx) →
    exec i s = .next s

/-- The model's choice (log entry 6), resting on R80: a wire octet asked for where the program does not send it is refused by
name. -/
def Obligations.WireOctetsElsewhereAreRefused : Prop :=
  ∀ (s : State) (i : Instr) (tx : Octet),
    (i, tx) ∈ ([(.wireNop, 0x00), (.wireReset, 0x60), (.wireZero, 0x70)] : List (Instr × Octet)) →
    (∀ dst, microOpAt s.seq ≠ some (.xfer tx dst)) →
    exec i s = .refused (.octetNotSentHere tx s.seq)

/-- R101: CSA drives the line active, the pin low, and advances IDX, whether or not the line was active already; the trace
records it every time; no flag is written. -/
def Obligations.CsaAssertsTheLine : Prop :=
  ∀ s : State, microOpAt s.seq = some .csa → s.HostSilent →
    step s = .next { s with
      csAct := true
      seq := ⟨s.seq.prog, s.seq.idx + 1⟩
      schedule := s.schedule.tail
      trace := s.trace ++ [.cs true] }

/-- R102: CSR drives the line inactive and advances IDX; no flag is written; each micro-program contains CSR exactly once, at
IDX 10, after both exchanges. -/
def Obligations.CsrReleasesTheLine : Prop :=
  (∀ q : Seq, microOpAt q = some .csr ↔ q.prog ≠ .none ∧ q.idx = 10) ∧
  (∀ (q : Seq) (tx : Octet) (dst : Dst), microOpAt q = some (.xfer tx dst) → q.idx < 10) ∧
  ∀ s : State, microOpAt s.seq = some .csr → s.HostSilent →
    step s = .next { s with
      csAct := false
      seq := ⟨s.seq.prog, s.seq.idx + 1⟩
      schedule := s.schedule.tail
      trace := s.trace ++ [.cs false] }

/-- Derived from R28 and R104: a wait issues its request, stays while the timer agent does not signal, and ends at the signal: the
request is cleared and IDX advances. The pins do not change and no flag is written. -/
def Obligations.WaitsIssueStayAndEnd : Prop :=
  ∀ (s : State) (op : MicroOp) (r : Request) (e : Event) (n : Nat), microOpAt s.seq = some op →
    (op, r, e) ∈ ([(.wus n, .wus n, .waitUs n), (.wms n, .wms n, .waitMs n)] : List (MicroOp × Request × Event)) → s.HostSilent →
    (s.pend = none → step s = .next { s with pend := some r, schedule := s.schedule.tail }) ∧
    (s.pend = some r → s.move ≠ .timerElapsed → step s = .next { s with schedule := s.schedule.tail }) ∧
    (s.pend = some r → s.move = .timerElapsed →
      step s = .next { s with
        pend := none
        seq := ⟨s.seq.prog, s.seq.idx + 1⟩
        schedule := s.schedule.tail
        trace := s.trace ++ [e] })

/-- R105: FIN makes the block idle with BUSY 0, DONE 1 and ERR OK in one step and leaves RESULT, CONFIG and all else; it stands
at IDX 12 of ZERO and RSTD only, after the settle wait. -/
def Obligations.FinEndsTheCommand : Prop :=
  (∀ q : Seq, microOpAt q = some .fin ↔ (q.prog = .zero ∨ q.prog = .rstd) ∧ q.idx = 12) ∧
  microOpAt ⟨.zero, 11⟩ = some (.wms 250) ∧ microOpAt ⟨.rstd, 11⟩ = some (.wms 250) ∧
  ∀ s : State, microOpAt s.seq = some .fin → s.HostSilent →
    ∃ st, step s =
        .next { s with
          status := st
          seq := ⟨.none, 0⟩
          schedule := s.schedule.tail
          trace := s.trace ++ [.done st s.result] } ∧
      statusBusy st = false ∧ statusDone st = true ∧ statusErr st = 0 ∧ statusPfault st = s.pfault ∧
      statusReserved st = statusReserved s.status

/-- Derived from R128 and R26: FINR, at IDX 11 of READ only, writes RESULT from ACC and RES, and in the same step makes the block idle with BUSY 0,
DONE 1 and ERR OK, whether or not the frame is valid; nothing else changes. Over an ACC that holds no value it does the same
with a free frame, and records the sticky model fault of U14: the model's choice (log entry 20). -/
def Obligations.FinrWritesThePosition : Prop :=
  (∀ q : Seq, microOpAt q = some .finr ↔ q = ⟨.read, 11⟩) ∧
  ∀ s : State, microOpAt s.seq = some .finr → s.HostSilent →
    (∀ raw, s.acc = some raw →
      ∃ st r, step s =
          .next { s with
            result := r
            status := st
            seq := ⟨.none, 0⟩
            schedule := s.schedule.tail
            trace := s.trace ++ [.done st r] } ∧
        r = (if chk raw then normWidth ((raw &&& 0x3FFF).setWidth 14) (if configRes14 s.config then .bits14 else .bits12)
             else 0xFFFF) ∧
        statusBusy st = false ∧ statusDone st = true ∧ statusErr st = 0 ∧ statusPfault st = s.pfault ∧
        statusReserved st = statusReserved s.status) ∧
    (s.acc = none →
      ∃ st r, step s =
          .next { s with
            result := r
            status := st
            seq := ⟨.none, 0⟩
            accFault := true
            draws := s.draws + 1
            schedule := s.schedule.tail
            trace := s.trace ++ [.done st r] } ∧
        r = pos (Config.unwrittenFrame s.draws) s.res ∧
        statusBusy st = false ∧ statusDone st = true ∧ statusErr st = 0 ∧ statusPfault st = s.pfault ∧
        statusReserved st = statusReserved s.status)

/-! ### Parity validator and normalizer -/

/-- R123: the validator's two group sums are the XOR reductions under the masks 0x2AAA and 0x1555, and a frame is valid exactly
when each checkbit is the negation of its group's sum. -/
def Obligations.CheckbitsNegateTheirMaskedSums : Prop :=
  ∀ raw : Word,
    oddX raw = xorReduce (raw &&& 0x2AAA) ∧ evenX raw = xorReduce (raw &&& 0x1555) ∧
    (chk raw = true ↔ raw.getLsbD 15 = !xorReduce (raw &&& 0x2AAA) ∧ raw.getLsbD 14 = !xorReduce (raw &&& 0x1555))

/-- R124: with each checkbit put into its own group, the check is odd parity over eight bits, in either form. -/
def Obligations.CheckIsOddParityOfBothGroups : Prop :=
  ∀ raw : Word,
    (chk raw = true ↔ popcount (raw &&& 0xAAAA) % 2 = 1 ∧ popcount (raw &&& 0x5555) % 2 = 1) ∧
    (chk raw = true ↔ xorReduce (raw &&& 0xAAAA) = true ∧ xorReduce (raw &&& 0x5555) = true)

/-- R125, R126, R127: a valid frame gives its magnitude, shifted down by 2 at 12 bits, zero extended; an invalid one gives the
sentinel at either resolution. -/
def Obligations.PositionSelectsAndNormalizes : Prop :=
  ∀ raw : Word,
    (chk raw = true → (pos raw .bits14).toNat = raw.toNat % 0x4000 ∧ (pos raw .bits12).toNat = raw.toNat % 0x4000 / 4) ∧
    (chk raw = false → pos raw .bits14 = 0xFFFF ∧ pos raw .bits12 = 0xFFFF)

/-- R129: the range of `pos`. -/
def Obligations.PositionRange : Prop :=
  ∀ raw : Word,
    ((pos raw .bits14).toNat ≤ 0x3FFF ∨ pos raw .bits14 = 0xFFFF) ∧
    ((pos raw .bits12).toNat ≤ 0x0FFF ∨ pos raw .bits12 = 0xFFFF)

/-- R132: a magnitude's frame, and its round trip. -/
def Obligations.EncodedMagnitudeReadsBack : Prop :=
  ∀ p : BitVec 14,
    enc p = (BitVec.ofBool (!xorReduce (p.setWidth 16 &&& 0x2AAA))).setWidth 16 <<< 15 |||
      (BitVec.ofBool (!xorReduce (p.setWidth 16 &&& 0x1555))).setWidth 16 <<< 14 ||| p.setWidth 16 ∧
    chk (enc p) = true ∧ (pos (enc p) .bits14).toNat = p.toNat ∧ (pos (enc p) .bits12).toNat = p.toNat / 4

/-- R133: a flipped checkbit gives the sentinel at both resolutions. -/
def Obligations.FlippedCheckbitGivesTheSentinel : Prop :=
  ∀ (p : BitVec 14) (res : Resolution),
    pos (enc p ^^^ 0x8000) res = 0xFFFF ∧ pos (enc p ^^^ 0x4000) res = 0xFFFF

/-- R134: flipping any one bit of a valid frame makes it invalid. -/
def Obligations.SingleBitCorruptionIsDetected : Prop :=
  ∀ (raw : Word) (i : Nat), chk raw = true → i < 16 →
    chk (raw ^^^ BitVec.twoPow 16 i) = false ∧ ∀ res, pos (raw ^^^ BitVec.twoPow 16 i) res = 0xFFFF

/-- R135: two flips in different groups are detected; two in the same group leave the frame valid with a wrong magnitude; the
rule's example. -/
def Obligations.DoubleBitCorruptionByGroup : Prop :=
  (∀ (raw : Word) (i j : Nat), chk raw = true → i < 16 → j < 16 → i ≠ j →
    (i % 2 ≠ j % 2 → chk (raw ^^^ BitVec.twoPow 16 i ^^^ BitVec.twoPow 16 j) = false) ∧
    (i % 2 = j % 2 → chk (raw ^^^ BitVec.twoPow 16 i ^^^ BitVec.twoPow 16 j) = true ∧
      magnitude (raw ^^^ BitVec.twoPow 16 i ^^^ BitVec.twoPow 16 j) ≠ magnitude raw)) ∧
  enc 0 = 0xC000 ∧ pos 0xC00A .bits14 = 0x000A

/-- R136: a result is the sentinel exactly when its frame is invalid; 0x3FFF is the frame of the largest magnitude, and a raw
0xFFFF is a failure. -/
def Obligations.SentinelMeansAFailedFrame : Prop :=
  (∀ (raw : Word) (res : Resolution), pos raw res = 0xFFFF ↔ chk raw = false) ∧
  enc 0x3FFF = 0x3FFF ∧ pos 0x3FFF .bits14 = 0x3FFF ∧ chk 0xFFFF = false ∧ ∀ res, pos 0xFFFF res = 0xFFFF

/-- R137: at 12 bits the two low magnitude bits are discarded whatever they hold: a valid frame gives MAG >> 2, and FINR ends with
no error; the rule's example. -/
def Obligations.TwelveBitReadDropsLowBits : Prop :=
  (∀ raw : Word, chk raw = true → (pos raw .bits12).toNat = (magnitude raw).toNat / 4) ∧
  (∀ (s : State) (raw : Word), microOpAt s.seq = some .finr → s.HostSilent → s.acc = some raw → chk raw = true →
    s.res = .bits12 →
    ∃ t, step s = .next t ∧ t.result.toNat = (magnitude raw).toNat / 4 ∧ t.result ≠ 0xFFFF ∧ t.err = 0) ∧
  (∀ p q : BitVec 14, p.toNat / 4 = q.toNat / 4 → pos (enc p) .bits12 = pos (enc q) .bits12) ∧
  enc 3 = 0x0003 ∧ pos 0x0003 .bits12 = 0x0000

/-- R140: a frame is valid exactly when it is the encoding of its own magnitude, and 16,384 frames are. -/
def Obligations.ValidFramesAreTheEncodings : Prop :=
  (∀ raw : Word, chk raw = true ↔ raw = enc (magnitude raw)) ∧
  (∀ raw : Word, chk raw = false → ∀ res, pos raw res = 0xFFFF) ∧
  Nat.card { raw : Word // chk raw = true } = 16384 ∧ Nat.card { raw : Word // chk raw = false } = 49152

/-! ### The register readout -/

/-- Derived from R34 and the numbers of R20: a readout gives the whole register, at any time, and changes nothing of the block. -/
def Obligations.ReadoutGivesTheRegister : Prop :=
  ∀ (s : State) (n : Nat) (v : Readout), s.move = .readRegister n →
    (n, v) ∈ ([(0, .result s.result), (1, .status s.status), (2, .config s.config)] : List (Nat × Readout)) →
    step s = .next { s with readouts := s.readouts ++ [v], schedule := s.schedule.tail }

/-- Derived from the last sentences of R64: a readout request for number 3 and up is refused by name. -/
def Obligations.UnknownRegisterIsRefused : Prop :=
  ∀ (s : State) (n : Nat), s.move = .readRegister n → 3 ≤ n → step s = .refused (.noSuchRegister n)

/-! ### Invariants and whole-machine rules -/

/-- Derived from R35: the invariant holds at reset, and the line agrees with the (empty) trace there. -/
def Obligations.InvariantAtReset : Prop :=
  State.reset.Inv ∧ State.reset.csAct = traceLine State.reset.trace

/-- Derived from R21, R23, R24, R26 to R31, R107 and R211: every step from a state that meets the invariant gives one that
meets it. -/
def Obligations.StepKeepsTheInvariant : Prop :=
  ∀ s t : State, s.Inv → step s = .next t → t.Inv

/-- Derived from R180 ("it never halts"), R27 and R64: from a state that meets the invariant, with a register that exists
asked for if one is, every step answers a next state: no fault and no refusal. -/
def Obligations.BlockNeverHalts : Prop :=
  ∀ s : State, s.Inv → readsKnownRegisters s.move = true → ∃ t, step s = .next t

/-- Derived from R109's reading of the pin: the line's level is that of the last `cs` event after the last `reset`, and every step keeps
it so. -/
def Obligations.LineFollowsTheTrace : Prop :=
  ∀ s t : State, s.csAct = traceLine s.trace → step s = .next t → t.csAct = traceLine t.trace

/-- Derived from R60 and R109 for the trace: a step adds to it at its end and takes nothing back. The model's choices in it: the
list of readouts, which is no part of R109's trace and grows in the same way, by at most one a step (log entries 9 and 15), and
that block reset takes back nothing of either (log entry 14). -/
def Obligations.ObservationOnlyGrows : Prop :=
  ∀ s t : State, step s = .next t →
    (∃ es, t.trace = s.trace ++ es ∧ es.length ≤ 2) ∧ ∃ vs, t.readouts = s.readouts ++ vs ∧ vs.length ≤ 1

/-- Derived from R32 and R196: PFAULT is set exactly by a command presented while BUSY = 1, and only block reset clears it. -/
def Obligations.PfaultIsSticky : Prop :=
  ∀ s t : State, step s = .next t → s.move ≠ .blockReset →
    (t.pfault = true ↔ s.pfault = true ∨ (s.busy = true ∧ ∃ cmd, s.move = .present cmd))

/-- Derived from R23 and R128: RESULT changes only when FINR runs, or by block reset. -/
def Obligations.OnlyFinrWritesResult : Prop :=
  ∀ s t : State, step s = .next t → t.result ≠ s.result → s.move = .blockReset ∨ microOpAt s.seq = some .finr

/-- Derived from R21, R170 and R173: CONFIG changes only by a SET_RESOLUTION of 12 or 14 presented while BUSY = 0, or by
block reset. -/
def Obligations.OnlySetResolutionWritesConfig : Prop :=
  ∀ s t : State, step s = .next t → t.config ≠ s.config →
    s.move = .blockReset ∨ (s.busy = false ∧ (s.move = .present 0x040C ∨ s.move = .present 0x040E))

/-- Derived from R29: BUSY goes to 1 only by one of the three bus commands, and to 0 only by FIN, FINR or block reset. -/
def Obligations.OnlyBusCommandsMoveBusy : Prop :=
  ∀ s t : State, step s = .next t →
    (s.busy = false → t.busy = true →
      s.move = .present 0x0100 ∨ s.move = .present 0x0200 ∨ s.move = .present 0x0300) ∧
    (s.busy = true → t.busy = false →
      s.move = .blockReset ∨ microOpAt s.seq = some .fin ∨ microOpAt s.seq = some .finr)

/-- Derived from R34, R57 and R61: while a bus command runs on, RESULT, CONFIG, DONE and ERR show nothing of it. -/
def Obligations.NothingShowsBeforeCompletion : Prop :=
  ∀ s t : State, step s = .next t → s.busy = true → t.busy = true →
    t.result = s.result ∧ t.config = s.config ∧ t.done = s.done ∧ t.err = s.err

/-- Derived from R7 and R38 for the parameter (log entry 3): no step changes it. The model's choice for the schedule (log entry
1): a step uses up one move, and what it answers does not depend on the moves after that one. -/
def Obligations.ParameterAndScheduleGoOn : Prop :=
  (∀ s t : State, step s = .next t → t.initRes = s.initRes ∧ t.schedule = s.schedule.tail) ∧
  ∀ (s : State) (later : List Move),
    (∀ t, step s = .next t → step { s with schedule := s.move :: later } = .next { t with schedule := later }) ∧
    (∀ f, step s = .fault f → step { s with schedule := s.move :: later } = .fault f) ∧
    (∀ r, step s = .refused r → step { s with schedule := s.move :: later } = .refused r)

/-- Derived from R107, R138 and R219: between the first CSA and the CSR the line stays active; only block reset can release
it there. -/
def Obligations.LineIsHeldThroughTheTransaction : Prop :=
  ∀ s t : State, s.Inv → s.seq.prog ≠ .none → 1 ≤ s.seq.idx → s.seq.idx ≤ 9 → s.move ≠ .blockReset →
    step s = .next t → s.csAct = true ∧ t.csAct = true

/-! ### Whole transactions -/

/-- Derived from R107, R154 and R222: the events of each micro-program hold exactly two exchanges, one assertion interval of
the line, 15 µs of waits, and 250 ms for ZERO and RSTD. -/
def Obligations.TransactionShape : Prop :=
  ∀ rx1 rx2 : Octet,
    exchanges (eventsOf readProgram [rx1, rx2]) = [(0x00, rx1), (0x00, rx2)] ∧
    exchanges (eventsOf zeroProgram [rx1, rx2]) = [(0x00, rx1), (0x70, rx2)] ∧
    exchanges (eventsOf rstdProgram [rx1, rx2]) = [(0x00, rx1), (0x60, rx2)] ∧
    ∀ p ∈ ([readProgram, zeroProgram, rstdProgram] : List (List MicroOp)),
      lineEdges false (eventsOf p [rx1, rx2]) = [true, false] ∧
      waitedUs (eventsOf p [rx1, rx2]) = 15 ∧
      waitedMs (eventsOf p [rx1, rx2]) = if p = readProgram then 0 else 250

/-- Derived from R34, R82, R120 to R122, R128 and R223: from an idle state, READ_POSITION under an environment of the shape
`serve`, which answers the two exchanges with `rx1` and `rx2` and every request as late as it likes, while the host reads
existing registers before, between and after these moves as often as it likes, ends with RESULT the position of the frame
`rx1`, `rx2` at the configured resolution; the trace is the READ program's, each readout has its one answer, and nothing else
has changed. -/
def Obligations.ReadPositionCompletes : Prop :=
  ∀ (s : State) (rx1 rx2 : Octet) (delays : List Nat) (moves rest : List Move), s.Inv → s.Idle →
    s.schedule = moves ++ rest → moves.all readsKnownRegisters = true →
    withoutReadouts moves = .present 0x0100 :: serve readProgram [rx1, rx2] delays →
    ∃ st vs, Sys2Proof.core.run moves.length s =
        .next { s with
          result := pos (rx1 ++ rx2) s.res
          status := st
          acc := some (rx1 ++ rx2)
          schedule := rest
          readouts := s.readouts ++ vs
          trace := s.trace ++ .accept 0x0100 :: (eventsOf readProgram [rx1, rx2] ++ [.done st (pos (rx1 ++ rx2) s.res)]) } ∧
      vs.length = moves.countP Move.isReadout ∧
      statusBusy st = false ∧ statusDone st = true ∧ statusErr st = 0 ∧ statusPfault st = s.pfault ∧
      statusReserved st = 0

/-- Derived from R34, R83, R84, R150 to R153, R155, R156 and R223: from an idle state, SET_ZERO and RESET_DEVICE under an
environment of the shape `serve`, every answer as late as it likes, while the host reads existing registers as often as it
likes, run their program to the end with ERR OK, whatever octets come back; each readout has its one answer, and RESULT,
CONFIG and ACC are unchanged. -/
def Obligations.DeviceCommandsComplete : Prop :=
  ∀ (s : State) (rx1 rx2 : Octet) (delays : List Nat) (moves rest : List Move) (cmd : Word) (p : List MicroOp), s.Inv → s.Idle →
    (cmd, p) ∈ ([(0x0200, zeroProgram), (0x0300, rstdProgram)] : List (Word × List MicroOp)) →
    s.schedule = moves ++ rest → moves.all readsKnownRegisters = true →
    withoutReadouts moves = .present cmd :: serve p [rx1, rx2] delays →
    ∃ st vs, Sys2Proof.core.run moves.length s =
        .next { s with
          status := st
          schedule := rest
          readouts := s.readouts ++ vs
          trace := s.trace ++ .accept cmd :: (eventsOf p [rx1, rx2] ++ [.done st s.result]) } ∧
      vs.length = moves.countP Move.isReadout ∧
      statusBusy st = false ∧ statusDone st = true ∧ statusErr st = 0 ∧ statusPfault st = s.pfault ∧
      statusReserved st = 0

/-- Derived from R103, R104 and R187: a request that the environment never answers, with no block reset, leaves the block where
it stands for good, BUSY and with the request outstanding, however many commands the host presents and registers it reads. -/
def Obligations.UnansweredRequestIsStuck : Prop :=
  ∀ (s : State) (r : Request) (n : Nat), s.Inv → s.pend = some r → neverAnswers r s.schedule = true →
    s.schedule.all readsKnownRegisters = true →
    ∃ t, Sys2Proof.core.run n s = .next t ∧ t.seq = s.seq ∧ t.pend = some r ∧ t.busy = true ∧ t.csAct = s.csAct ∧
      t.result = s.result ∧ t.config = s.config ∧ t.acc = s.acc ∧ ¬ t.Final

/-- Derived from R26, R59 and R121: what ACC held before a transaction reaches nothing: two states that differ in ACC alone,
outside the stretch of READ that holds a fresh octet, stay equal in all but ACC over every run. -/
def Obligations.StaleAccReachesNothing : Prop :=
  ∀ (s : State) (a : Option Word) (n : Nat) (t : State), ¬ (s.seq.prog = .read ∧ 3 ≤ s.seq.idx) →
    Sys2Proof.core.run n s = .next t →
    ∃ a', Sys2Proof.core.run n { s with acc := a } = .next { t with acc := a' } ∧
      (t.seq.prog = .read ∧ 3 ≤ t.seq.idx → a' = t.acc)

/-- Derived from R26, R35, R196 and U14 ("No legal run reads it"), with the model's own fault bit (log entry 20): from a state
that meets the invariant no step reads an ACC that holds no value, so no free frame is drawn and the fault is not recorded;
and where it is recorded, only block reset clears it. -/
def Obligations.NoLegalRunReadsAnUnwrittenAcc : Prop :=
  (∀ s t : State, s.Inv → step s = .next t →
    t.draws = s.draws ∧ (t.accFault = true → s.accFault = true)) ∧
  ∀ s t : State, step s = .next t → s.accFault = true → s.move ≠ .blockReset → t.accFault = true
end

