-- ==== Sys2Proof/Laws/Decode.lean ====
section
/-! SUPPORT. The fields of a command word, and what each decoder can answer. -/

namespace Sys2Proof

@[simp] theorem opField_commandWord (op arg : BitVec 8) : opField (commandWord op arg) = op := by
  simp only [opField, commandWord]
  ext i hi
  simp only [BitVec.getElem_extractLsb']
  exact BitVec.getLsbD_append.trans (by simp [BitVec.getLsbD_eq_getElem hi])

@[simp] theorem argField_commandWord (op arg : BitVec 8) : argField (commandWord op arg) = arg := by
  simp only [argField, commandWord]
  ext i hi
  simp only [BitVec.getElem_extractLsb']
  exact BitVec.getLsbD_append.trans (by simp [hi])

/-- A word is its two fields (R70). -/
theorem commandWord_fields (cmd : Word) : commandWord (opField cmd) (argField cmd) = cmd := by
  simp only [opField, argField, commandWord]
  ext i hi
  simp only [BitVec.getElem_append, BitVec.getElem_extractLsb']
  split
  · simp [BitVec.getLsbD_eq_getElem hi]
  · have h : 8 + (i - 8) = i := by omega
    simp [h, BitVec.getLsbD_eq_getElem hi]

/-- What a command word can decode to (R76): never a wire octet. -/
theorem decodeCommand_ok_cases {cmd : Word} {i : Instr} (h : decodeCommand cmd = .ok i) :
    (i = .readPosition ∧ cmd = commandWord opReadPosition 0) ∨ (i = .setZero ∧ cmd = commandWord opSetZero 0) ∨
    (i = .resetDevice ∧ cmd = commandWord opResetDevice 0) ∨
    (i = .setResolution (argField cmd).toNat ∧ cmd = commandWord opSetResolution (argField cmd)) := by
  have hc := commandWord_fields cmd
  simp only [decodeCommand, withoutArg] at h
  split at h
  case isTrue h1 =>
    split at h
    case isTrue h2 => cases h; rw [h1, h2] at hc; exact .inl ⟨rfl, hc.symm⟩
    case isFalse => cases h
  case isFalse =>
  split at h
  case isTrue h1 =>
    split at h
    case isTrue h2 => cases h; rw [h1, h2] at hc; exact .inr (.inl ⟨rfl, hc.symm⟩)
    case isFalse => cases h
  case isFalse =>
  split at h
  case isTrue h1 =>
    split at h
    case isTrue h2 => cases h; rw [h1, h2] at hc; exact .inr (.inr (.inl ⟨rfl, hc.symm⟩))
    case isFalse => cases h
  case isFalse =>
  split at h
  case isTrue h1 => cases h; rw [h1] at hc; exact .inr (.inr (.inr ⟨rfl, hc.symm⟩))
  case isFalse => cases h

@[simp] theorem decodeOctet_nop : decodeOctet octetNop = .ok .wireNop := rfl
@[simp] theorem decodeOctet_reset : decodeOctet octetReset = .ok .wireReset := by decide
@[simp] theorem decodeOctet_zero : decodeOctet octetZero = .ok .wireZero := by decide

/-- What an octet can decode to (R80). -/
theorem decodeOctet_ok_cases {b : Octet} {i : Instr} (h : decodeOctet b = .ok i) :
    (i = .wireNop ∧ b = octetNop) ∨ (i = .wireReset ∧ b = octetReset) ∨ (i = .wireZero ∧ b = octetZero) := by
  simp only [decodeOctet] at h
  split at h
  case isTrue hb => cases h; exact .inl ⟨rfl, hb⟩
  case isFalse =>
  split at h
  case isTrue hb => cases h; exact .inr (.inl ⟨rfl, hb⟩)
  case isFalse =>
  split at h
  case isTrue hb => cases h; exact .inr (.inr ⟨rfl, hb⟩)
  case isFalse => cases h

end Sys2Proof
end

