-- ==== Sys2Proof/Laws/Flags.lean ====
section
/-! SUPPORT. Each field of STATUS and CONFIG after each write of a field. -/

namespace Sys2Proof.Machine

/-! ### STATUS: packing and reading back -/

@[simp] theorem statusReserved_pack (r : BitVec 3) (p : Bool) (e : BitVec 2) (d b : Bool) :
    statusReserved (packStatus r p e d b) = r := by revert r p e d b; decide
@[simp] theorem statusPfault_pack (r : BitVec 3) (p : Bool) (e : BitVec 2) (d b : Bool) :
    statusPfault (packStatus r p e d b) = p := by revert r p e d b; decide
@[simp] theorem statusErr_pack (r : BitVec 3) (p : Bool) (e : BitVec 2) (d b : Bool) :
    statusErr (packStatus r p e d b) = e := by revert r p e d b; decide
@[simp] theorem statusDone_pack (r : BitVec 3) (p : Bool) (e : BitVec 2) (d b : Bool) :
    statusDone (packStatus r p e d b) = d := by revert r p e d b; decide
@[simp] theorem statusBusy_pack (r : BitVec 3) (p : Bool) (e : BitVec 2) (d b : Bool) :
    statusBusy (packStatus r p e d b) = b := by revert r p e d b; decide

/-- STATUS is its fields and nothing more (R24). -/
theorem packStatus_fields (v : BitVec 8) :
    packStatus (statusReserved v) (statusPfault v) (statusErr v) (statusDone v) (statusBusy v) = v := by
  revert v; decide

variable (v : BitVec 8) (b : Bool) (e : BitVec 2)

@[simp] theorem statusBusy_setBusy : statusBusy (setBusy b v) = b := by simp [setBusy]
@[simp] theorem statusDone_setBusy : statusDone (setBusy b v) = statusDone v := by simp [setBusy]
@[simp] theorem statusErr_setBusy : statusErr (setBusy b v) = statusErr v := by simp [setBusy]
@[simp] theorem statusPfault_setBusy : statusPfault (setBusy b v) = statusPfault v := by simp [setBusy]
@[simp] theorem statusReserved_setBusy : statusReserved (setBusy b v) = statusReserved v := by simp [setBusy]

@[simp] theorem statusBusy_setDone : statusBusy (setDone b v) = statusBusy v := by simp [setDone]
@[simp] theorem statusDone_setDone : statusDone (setDone b v) = b := by simp [setDone]
@[simp] theorem statusErr_setDone : statusErr (setDone b v) = statusErr v := by simp [setDone]
@[simp] theorem statusPfault_setDone : statusPfault (setDone b v) = statusPfault v := by simp [setDone]
@[simp] theorem statusReserved_setDone : statusReserved (setDone b v) = statusReserved v := by simp [setDone]

@[simp] theorem statusBusy_setErr : statusBusy (setErr e v) = statusBusy v := by simp [setErr]
@[simp] theorem statusDone_setErr : statusDone (setErr e v) = statusDone v := by simp [setErr]
@[simp] theorem statusErr_setErr : statusErr (setErr e v) = e := by simp [setErr]
@[simp] theorem statusPfault_setErr : statusPfault (setErr e v) = statusPfault v := by simp [setErr]
@[simp] theorem statusReserved_setErr : statusReserved (setErr e v) = statusReserved v := by simp [setErr]

@[simp] theorem statusBusy_setPfault : statusBusy (setPfault v) = statusBusy v := by simp [setPfault]
@[simp] theorem statusDone_setPfault : statusDone (setPfault v) = statusDone v := by simp [setPfault]
@[simp] theorem statusErr_setPfault : statusErr (setPfault v) = statusErr v := by simp [setPfault]
@[simp] theorem statusPfault_setPfault : statusPfault (setPfault v) = true := by simp [setPfault]
@[simp] theorem statusReserved_setPfault : statusReserved (setPfault v) = statusReserved v := by simp [setPfault]

/-! ### CONFIG -/

@[simp] theorem configRes14_setRes14 : configRes14 (setRes14 b v) = b := by revert v b; decide
@[simp] theorem configReserved_setRes14 : configReserved (setRes14 b v) = configReserved v := by revert v b; decide

end Sys2Proof.Machine
end

