-- ==== Sys2Proof/Laws/Program.lean ====
section
/-! SUPPORT. What stands where in the three micro-programs: facts over the 64 positions of SEQ, by computation. -/

namespace Sys2Proof.Machine

/-- Every position of SEQ has a property if each program's sixteen have it. -/
theorem forall_seq {P : Seq → Prop} (h : ∀ i, P ⟨.none, i⟩) (hr : ∀ i, P ⟨.read, i⟩) (hz : ∀ i, P ⟨.zero, i⟩)
    (hs : ∀ i, P ⟨.rstd, i⟩) (q : Seq) : P q := by
  obtain ⟨p, i⟩ := q
  cases p
  · exact h i
  · exact hr i
  · exact hz i
  · exact hs i

theorem exchangeDst_eq_some {tx : Octet} {q : Seq} {dst : Dst} :
    exchangeDst tx q = some dst ↔ microOpAt q = some (.xfer tx dst) := by
  unfold exchangeDst
  split
  case h_1 tx' d h =>
    split
    case isTrue ht => subst ht; simp [h]
    case isFalse ht => simp [h, ht]
  case h_2 h =>
    constructor
    · intro h'; cases h'
    · intro h'; exact absurd h' (h tx dst)

/-- The idle program has no micro-operation (R27). -/
@[simp] theorem microOpAt_none (i : BitVec 4) : microOpAt ⟨.none, i⟩ = none := by revert i; decide

theorem prog_ne_none_of_microOpAt {q : Seq} {op : MicroOp} (h : microOpAt q = some op) : q.prog ≠ .none := by
  intro hp
  obtain ⟨p, i⟩ := q
  cases hp
  simp at h

/-- Every micro-operation of a program but its last has another after it (R27: no branch, no wrap). -/
theorem microOpAt_succ (q : Seq) (h : (microOpAt q).isSome) (hf : microOpAt q ≠ some .fin) (hr : microOpAt q ≠ some .finr) :
    (microOpAt ⟨q.prog, q.idx + 1⟩).isSome := by
  have key : ∀ q : Seq, (microOpAt q).isSome → microOpAt q ≠ some .fin → microOpAt q ≠ some .finr →
      (microOpAt ⟨q.prog, q.idx + 1⟩).isSome := by
    refine forall_seq ?_ ?_ ?_ ?_ <;> decide
  exact key q h hf hr

/-- The line before the next micro-operation (R107): CSA leaves it active, CSR inactive, all others as it was. -/
theorem lineAt_succ (q : Seq) (op : MicroOp) (h : microOpAt q = some op) (hf : op ≠ .fin) (hr : op ≠ .finr) :
    lineAt ⟨q.prog, q.idx + 1⟩ = (if op = .csa then true else if op = .csr then false else lineAt q) := by
  have key : ∀ q : Seq, microOpAt q = none ∨ microOpAt q = some .fin ∨ microOpAt q = some .finr ∨
      lineAt ⟨q.prog, q.idx + 1⟩ =
        (if microOpAt q = some .csa then true else if microOpAt q = some .csr then false else lineAt q) := by
    refine forall_seq ?_ ?_ ?_ ?_ <;> decide
  rcases key q with k | k | k | k
  · rw [h] at k; cases k
  · rw [h] at k; exact absurd (Option.some.inj k) hf
  · rw [h] at k; exact absurd (Option.some.inj k) hr
  · simpa [h] using k

/-- The octets of the programs' exchanges decode (R80). -/
theorem octet_of_program_decodes {q : Seq} {tx : Octet} {dst : Dst} (h : microOpAt q = some (.xfer tx dst)) :
    ∃ i, decodeOctet tx = .ok i := by
  have key : ∀ q : Seq, ∀ tx dst, microOpAt q = some (.xfer tx dst) → tx = octetNop ∨ tx = octetReset ∨ tx = octetZero := by
    intro q tx dst
    have k : ∀ q : Seq, (microOpAt q).all (fun op => match op with
        | .xfer t _ => decide (t = octetNop ∨ t = octetReset ∨ t = octetZero)
        | _ => true) = true := by
      refine forall_seq ?_ ?_ ?_ ?_ <;> decide
    intro h
    have := k q
    simpa [h] using this
  rcases key q tx dst h with rfl | rfl | rfl
  · exact ⟨_, decodeOctet_nop⟩
  · exact ⟨_, decodeOctet_reset⟩
  · exact ⟨_, decodeOctet_zero⟩

end Sys2Proof.Machine
end

