-- ==== Sys2Proof/Laws/State.lean ====
section
/-! SUPPORT. One lemma per field of State for each elementary update, so that no later proof unfolds a record. -/

namespace Sys2Proof.Machine

variable (s : State)

/-! ### Recording an event -/

@[simp] theorem record_result (e : Event) : (record e s).result = s.result := rfl
@[simp] theorem record_status (e : Event) : (record e s).status = s.status := rfl
@[simp] theorem record_config (e : Event) : (record e s).config = s.config := rfl
@[simp] theorem record_acc (e : Event) : (record e s).acc = s.acc := rfl
@[simp] theorem record_seq (e : Event) : (record e s).seq = s.seq := rfl
@[simp] theorem record_csAct (e : Event) : (record e s).csAct = s.csAct := rfl
@[simp] theorem record_pend (e : Event) : (record e s).pend = s.pend := rfl
@[simp] theorem record_draws (e : Event) : (record e s).draws = s.draws := rfl
@[simp] theorem record_accFault (e : Event) : (record e s).accFault = s.accFault := rfl
@[simp] theorem record_initRes (e : Event) : (record e s).initRes = s.initRes := rfl
@[simp] theorem record_schedule (e : Event) : (record e s).schedule = s.schedule := rfl
@[simp] theorem record_trace (e : Event) : (record e s).trace = s.trace ++ [e] := rfl
@[simp] theorem record_readouts (e : Event) : (record e s).readouts = s.readouts := rfl

/-! ### Advancing IDX -/

@[simp] theorem advance_result : (advance s).result = s.result := rfl
@[simp] theorem advance_status : (advance s).status = s.status := rfl
@[simp] theorem advance_config : (advance s).config = s.config := rfl
@[simp] theorem advance_acc : (advance s).acc = s.acc := rfl
@[simp] theorem advance_seq : (advance s).seq = ⟨s.seq.prog, s.seq.idx + 1⟩ := rfl
@[simp] theorem advance_csAct : (advance s).csAct = s.csAct := rfl
@[simp] theorem advance_pend : (advance s).pend = s.pend := rfl
@[simp] theorem advance_draws : (advance s).draws = s.draws := rfl
@[simp] theorem advance_accFault : (advance s).accFault = s.accFault := rfl
@[simp] theorem advance_initRes : (advance s).initRes = s.initRes := rfl
@[simp] theorem advance_schedule : (advance s).schedule = s.schedule := rfl
@[simp] theorem advance_trace : (advance s).trace = s.trace := rfl
@[simp] theorem advance_readouts : (advance s).readouts = s.readouts := rfl

/-! ### Using up the environment's move -/

@[simp] theorem endMove_result : (endMove s).result = s.result := rfl
@[simp] theorem endMove_status : (endMove s).status = s.status := rfl
@[simp] theorem endMove_config : (endMove s).config = s.config := rfl
@[simp] theorem endMove_acc : (endMove s).acc = s.acc := rfl
@[simp] theorem endMove_seq : (endMove s).seq = s.seq := rfl
@[simp] theorem endMove_csAct : (endMove s).csAct = s.csAct := rfl
@[simp] theorem endMove_pend : (endMove s).pend = s.pend := rfl
@[simp] theorem endMove_draws : (endMove s).draws = s.draws := rfl
@[simp] theorem endMove_accFault : (endMove s).accFault = s.accFault := rfl
@[simp] theorem endMove_initRes : (endMove s).initRes = s.initRes := rfl
@[simp] theorem endMove_schedule : (endMove s).schedule = s.schedule.tail := rfl
@[simp] theorem endMove_trace : (endMove s).trace = s.trace := rfl
@[simp] theorem endMove_readouts : (endMove s).readouts = s.readouts := rfl

/-! ### Issuing a request -/

@[simp] theorem issue_result (r : Request) : (issue r s).result = s.result := rfl
@[simp] theorem issue_status (r : Request) : (issue r s).status = s.status := rfl
@[simp] theorem issue_config (r : Request) : (issue r s).config = s.config := rfl
@[simp] theorem issue_acc (r : Request) : (issue r s).acc = s.acc := rfl
@[simp] theorem issue_seq (r : Request) : (issue r s).seq = s.seq := rfl
@[simp] theorem issue_csAct (r : Request) : (issue r s).csAct = s.csAct := rfl
@[simp] theorem issue_pend (r : Request) : (issue r s).pend = some r := rfl
@[simp] theorem issue_draws (r : Request) : (issue r s).draws = s.draws := rfl
@[simp] theorem issue_accFault (r : Request) : (issue r s).accFault = s.accFault := rfl
@[simp] theorem issue_initRes (r : Request) : (issue r s).initRes = s.initRes := rfl
@[simp] theorem issue_schedule (r : Request) : (issue r s).schedule = s.schedule := rfl
@[simp] theorem issue_trace (r : Request) : (issue r s).trace = s.trace := rfl
@[simp] theorem issue_readouts (r : Request) : (issue r s).readouts = s.readouts := rfl

/-! ### Moving the line -/

@[simp] theorem setCs_result (a : Bool) : (setCs a s).result = s.result := rfl
@[simp] theorem setCs_status (a : Bool) : (setCs a s).status = s.status := rfl
@[simp] theorem setCs_config (a : Bool) : (setCs a s).config = s.config := rfl
@[simp] theorem setCs_acc (a : Bool) : (setCs a s).acc = s.acc := rfl
@[simp] theorem setCs_seq (a : Bool) : (setCs a s).seq = ⟨s.seq.prog, s.seq.idx + 1⟩ := rfl
@[simp] theorem setCs_csAct (a : Bool) : (setCs a s).csAct = a := rfl
@[simp] theorem setCs_pend (a : Bool) : (setCs a s).pend = s.pend := rfl
@[simp] theorem setCs_draws (a : Bool) : (setCs a s).draws = s.draws := rfl
@[simp] theorem setCs_accFault (a : Bool) : (setCs a s).accFault = s.accFault := rfl
@[simp] theorem setCs_initRes (a : Bool) : (setCs a s).initRes = s.initRes := rfl
@[simp] theorem setCs_schedule (a : Bool) : (setCs a s).schedule = s.schedule := rfl
@[simp] theorem setCs_trace (a : Bool) : (setCs a s).trace = s.trace ++ [.cs a] := rfl
@[simp] theorem setCs_readouts (a : Bool) : (setCs a s).readouts = s.readouts := rfl

/-! ### Accepting a command -/

@[simp] theorem beginCommand_result (cmd : Word) : (beginCommand cmd s).result = s.result := rfl
@[simp] theorem beginCommand_status (cmd : Word) : (beginCommand cmd s).status = setErr errOk (setDone false s.status) := rfl
@[simp] theorem beginCommand_config (cmd : Word) : (beginCommand cmd s).config = s.config := rfl
@[simp] theorem beginCommand_acc (cmd : Word) : (beginCommand cmd s).acc = s.acc := rfl
@[simp] theorem beginCommand_seq (cmd : Word) : (beginCommand cmd s).seq = s.seq := rfl
@[simp] theorem beginCommand_csAct (cmd : Word) : (beginCommand cmd s).csAct = s.csAct := rfl
@[simp] theorem beginCommand_pend (cmd : Word) : (beginCommand cmd s).pend = s.pend := rfl
@[simp] theorem beginCommand_draws (cmd : Word) : (beginCommand cmd s).draws = s.draws := rfl
@[simp] theorem beginCommand_accFault (cmd : Word) : (beginCommand cmd s).accFault = s.accFault := rfl
@[simp] theorem beginCommand_initRes (cmd : Word) : (beginCommand cmd s).initRes = s.initRes := rfl
@[simp] theorem beginCommand_schedule (cmd : Word) : (beginCommand cmd s).schedule = s.schedule := rfl
@[simp] theorem beginCommand_trace (cmd : Word) : (beginCommand cmd s).trace = s.trace ++ [.accept cmd] := rfl
@[simp] theorem beginCommand_readouts (cmd : Word) : (beginCommand cmd s).readouts = s.readouts := rfl

/-! ### Dropping a command -/

@[simp] theorem dropCommand_result (cmd : Word) : (dropCommand cmd s).result = s.result := rfl
@[simp] theorem dropCommand_status (cmd : Word) : (dropCommand cmd s).status = setPfault s.status := rfl
@[simp] theorem dropCommand_config (cmd : Word) : (dropCommand cmd s).config = s.config := rfl
@[simp] theorem dropCommand_acc (cmd : Word) : (dropCommand cmd s).acc = s.acc := rfl
@[simp] theorem dropCommand_seq (cmd : Word) : (dropCommand cmd s).seq = s.seq := rfl
@[simp] theorem dropCommand_csAct (cmd : Word) : (dropCommand cmd s).csAct = s.csAct := rfl
@[simp] theorem dropCommand_pend (cmd : Word) : (dropCommand cmd s).pend = s.pend := rfl
@[simp] theorem dropCommand_draws (cmd : Word) : (dropCommand cmd s).draws = s.draws := rfl
@[simp] theorem dropCommand_accFault (cmd : Word) : (dropCommand cmd s).accFault = s.accFault := rfl
@[simp] theorem dropCommand_initRes (cmd : Word) : (dropCommand cmd s).initRes = s.initRes := rfl
@[simp] theorem dropCommand_schedule (cmd : Word) : (dropCommand cmd s).schedule = s.schedule := rfl
@[simp] theorem dropCommand_trace (cmd : Word) : (dropCommand cmd s).trace = s.trace ++ [.drop cmd] := rfl
@[simp] theorem dropCommand_readouts (cmd : Word) : (dropCommand cmd s).readouts = s.readouts := rfl

/-! ### Starting a program -/

@[simp] theorem startProgram_result (p : Prog) : (startProgram p s).result = s.result := rfl
@[simp] theorem startProgram_status (p : Prog) : (startProgram p s).status = setBusy true s.status := rfl
@[simp] theorem startProgram_config (p : Prog) : (startProgram p s).config = s.config := rfl
@[simp] theorem startProgram_acc (p : Prog) : (startProgram p s).acc = s.acc := rfl
@[simp] theorem startProgram_seq (p : Prog) : (startProgram p s).seq = ⟨p, 0⟩ := rfl
@[simp] theorem startProgram_csAct (p : Prog) : (startProgram p s).csAct = s.csAct := rfl
@[simp] theorem startProgram_pend (p : Prog) : (startProgram p s).pend = s.pend := rfl
@[simp] theorem startProgram_draws (p : Prog) : (startProgram p s).draws = s.draws := rfl
@[simp] theorem startProgram_accFault (p : Prog) : (startProgram p s).accFault = s.accFault := rfl
@[simp] theorem startProgram_initRes (p : Prog) : (startProgram p s).initRes = s.initRes := rfl
@[simp] theorem startProgram_schedule (p : Prog) : (startProgram p s).schedule = s.schedule := rfl
@[simp] theorem startProgram_trace (p : Prog) : (startProgram p s).trace = s.trace := rfl
@[simp] theorem startProgram_readouts (p : Prog) : (startProgram p s).readouts = s.readouts := rfl

/-! ### Finishing in the acceptance step -/

@[simp] theorem completeWith_result (c : BitVec 2) : (completeWith c s).result = s.result := rfl
@[simp] theorem completeWith_status (c : BitVec 2) : (completeWith c s).status = setDone true (setErr c s.status) := rfl
@[simp] theorem completeWith_config (c : BitVec 2) : (completeWith c s).config = s.config := rfl
@[simp] theorem completeWith_acc (c : BitVec 2) : (completeWith c s).acc = s.acc := rfl
@[simp] theorem completeWith_seq (c : BitVec 2) : (completeWith c s).seq = s.seq := rfl
@[simp] theorem completeWith_csAct (c : BitVec 2) : (completeWith c s).csAct = s.csAct := rfl
@[simp] theorem completeWith_pend (c : BitVec 2) : (completeWith c s).pend = s.pend := rfl
@[simp] theorem completeWith_draws (c : BitVec 2) : (completeWith c s).draws = s.draws := rfl
@[simp] theorem completeWith_accFault (c : BitVec 2) : (completeWith c s).accFault = s.accFault := rfl
@[simp] theorem completeWith_initRes (c : BitVec 2) : (completeWith c s).initRes = s.initRes := rfl
@[simp] theorem completeWith_schedule (c : BitVec 2) : (completeWith c s).schedule = s.schedule := rfl
@[simp] theorem completeWith_trace (c : BitVec 2) : (completeWith c s).trace = s.trace ++ [.done (setDone true (setErr c s.status)) s.result] := rfl
@[simp] theorem completeWith_readouts (c : BitVec 2) : (completeWith c s).readouts = s.readouts := rfl

/-! ### Finishing a program -/

@[simp] theorem finishProgram_result : (finishProgram s).result = s.result := rfl
@[simp] theorem finishProgram_status : (finishProgram s).status = setErr errOk (setDone true (setBusy false s.status)) := rfl
@[simp] theorem finishProgram_config : (finishProgram s).config = s.config := rfl
@[simp] theorem finishProgram_acc : (finishProgram s).acc = s.acc := rfl
@[simp] theorem finishProgram_seq : (finishProgram s).seq = ⟨.none, 0⟩ := rfl
@[simp] theorem finishProgram_csAct : (finishProgram s).csAct = s.csAct := rfl
@[simp] theorem finishProgram_pend : (finishProgram s).pend = s.pend := rfl
@[simp] theorem finishProgram_draws : (finishProgram s).draws = s.draws := rfl
@[simp] theorem finishProgram_accFault : (finishProgram s).accFault = s.accFault := rfl
@[simp] theorem finishProgram_initRes : (finishProgram s).initRes = s.initRes := rfl
@[simp] theorem finishProgram_schedule : (finishProgram s).schedule = s.schedule := rfl
@[simp] theorem finishProgram_trace : (finishProgram s).trace = s.trace ++ [.done (setErr errOk (setDone true (setBusy false s.status))) s.result] := rfl
@[simp] theorem finishProgram_readouts : (finishProgram s).readouts = s.readouts := rfl

/-! ### Taking the bus agent's octet -/

section takeOctet
variable (tx rx : Octet) (dst : Dst)
@[simp] theorem takeOctet_result : (takeOctet tx dst rx s).result = s.result := rfl
@[simp] theorem takeOctet_status : (takeOctet tx dst rx s).status = s.status := rfl
@[simp] theorem takeOctet_config : (takeOctet tx dst rx s).config = s.config := rfl
@[simp] theorem takeOctet_acc : (takeOctet tx dst rx s).acc = storeOctet dst rx s.acc := rfl
@[simp] theorem takeOctet_seq : (takeOctet tx dst rx s).seq = ⟨s.seq.prog, s.seq.idx + 1⟩ := rfl
@[simp] theorem takeOctet_csAct : (takeOctet tx dst rx s).csAct = s.csAct := rfl
@[simp] theorem takeOctet_pend : (takeOctet tx dst rx s).pend = none := rfl
@[simp] theorem takeOctet_draws : (takeOctet tx dst rx s).draws = s.draws := rfl
@[simp] theorem takeOctet_accFault : (takeOctet tx dst rx s).accFault = s.accFault := rfl
@[simp] theorem takeOctet_initRes : (takeOctet tx dst rx s).initRes = s.initRes := rfl
@[simp] theorem takeOctet_schedule : (takeOctet tx dst rx s).schedule = s.schedule := rfl
@[simp] theorem takeOctet_trace : (takeOctet tx dst rx s).trace = s.trace ++ [.xfer tx rx] := rfl
@[simp] theorem takeOctet_readouts : (takeOctet tx dst rx s).readouts = s.readouts := rfl
end takeOctet

/-! ### Writing RESULT from ACC -/

@[simp] theorem writePosition_result : (writePosition s).result = pos s.frame s.res := rfl
@[simp] theorem writePosition_status : (writePosition s).status = s.status := rfl
@[simp] theorem writePosition_config : (writePosition s).config = s.config := rfl
@[simp] theorem writePosition_acc : (writePosition s).acc = s.acc := rfl
@[simp] theorem writePosition_seq : (writePosition s).seq = s.seq := rfl
@[simp] theorem writePosition_csAct : (writePosition s).csAct = s.csAct := rfl
@[simp] theorem writePosition_pend : (writePosition s).pend = s.pend := rfl
@[simp] theorem writePosition_accFault : (writePosition s).accFault = (s.accFault || s.acc.isNone) := rfl
@[simp] theorem writePosition_draws : (writePosition s).draws = s.draws + if s.acc.isNone then 1 else 0 := rfl
@[simp] theorem writePosition_initRes : (writePosition s).initRes = s.initRes := rfl
@[simp] theorem writePosition_schedule : (writePosition s).schedule = s.schedule := rfl
@[simp] theorem writePosition_trace : (writePosition s).trace = s.trace := rfl
@[simp] theorem writePosition_readouts : (writePosition s).readouts = s.readouts := rfl

/-! ### Block reset -/

@[simp] theorem blockReset_result : (blockReset s).result = 0xFFFF := rfl
@[simp] theorem blockReset_status : (blockReset s).status = 0x00 := rfl
@[simp] theorem blockReset_config : (blockReset s).config = (State.resetOf s.initRes).config := rfl
@[simp] theorem blockReset_acc : (blockReset s).acc = none := rfl
@[simp] theorem blockReset_seq : (blockReset s).seq = ⟨.none, 0⟩ := rfl
@[simp] theorem blockReset_csAct : (blockReset s).csAct = false := rfl
@[simp] theorem blockReset_pend : (blockReset s).pend = none := rfl
@[simp] theorem blockReset_draws : (blockReset s).draws = s.draws := rfl
@[simp] theorem blockReset_accFault : (blockReset s).accFault = false := rfl
@[simp] theorem blockReset_initRes : (blockReset s).initRes = s.initRes := rfl
@[simp] theorem blockReset_schedule : (blockReset s).schedule = s.schedule := rfl
@[simp] theorem blockReset_trace : (blockReset s).trace = s.trace ++ [.reset] := rfl
@[simp] theorem blockReset_readouts : (blockReset s).readouts = s.readouts := rfl

end Sys2Proof.Machine
end

