-- ==== Sys2Proof/Laws/Ops.lean ====
section
/-! SUPPORT. What each shared operation can do, said once: later proofs cite these and do not unfold it. -/

namespace Sys2Proof.Machine

variable {s t : State}

/-! ### Answers -/

theorem thenEndMove_eq_next {a : Answer} : thenEndMove a = .next t ↔ ∃ u, a = .next u ∧ t = endMove u := by
  cases a <;> simp [thenEndMove, eq_comm]

@[simp] theorem thenEndMove_next : thenEndMove (.next s) = .next (endMove s) := rfl

/-! ### Commands -/

theorem onCommand_busy (cmd : Word) (k : State → State) (h : s.busy = true) :
    onCommand cmd k s = .next (dropCommand cmd s) := by simp [onCommand, h]

theorem onCommand_idle (cmd : Word) (k : State → State) (h : s.busy = false) :
    onCommand cmd k s = .next (k (beginCommand cmd s)) := by simp [onCommand, h]

theorem rejectWith_eq (code : BitVec 2) (s : State) : rejectWith code s = completeWith code s := rfl

/-- What an accepted SET_RESOLUTION does (R170): it finishes at once, with CONFIG written or CFG_ERR. -/
theorem configure_cases (bits : Nat) (s : State) :
    (bits = 12 ∧ configure bits s = completeWith errOk { s with config := setRes14 false s.config }) ∨
    (bits = 14 ∧ configure bits s = completeWith errOk { s with config := setRes14 true s.config }) ∨
    (bits ≠ 12 ∧ bits ≠ 14 ∧ configure bits s = rejectWith errCfg s) := by
  by_cases h : bits = 12
  · subst h; exact .inl ⟨rfl, rfl⟩
  · by_cases h' : bits = 14
    · subst h'; exact .inr (.inl ⟨rfl, rfl⟩)
    · exact .inr (.inr ⟨h, h', by simp [configure, resolutionOfBits, h, h']⟩)

/-! ### Waits and exchanges -/

/-- A timed wait issues its request, ends at the timer's signal, or stays (R104). -/
theorem timedWait_cases (r : Request) (e : Event) (s : State) :
    (s.pend = none ∧ timedWait r e s = issue r s) ∨
    (s.pend = some r ∧ s.move = .timerElapsed ∧ timedWait r e s = record e (advance { s with pend := none })) ∨
    (s.pend ≠ none ∧ ¬ (s.pend = some r ∧ s.move = .timerElapsed) ∧ timedWait r e s = s) := by
  cases hp : s.pend with
  | none => exact .inl ⟨rfl, by simp [timedWait, hp]⟩
  | some r' =>
    by_cases h : r' = r ∧ s.move = .timerElapsed
    · exact .inr (.inl ⟨by rw [h.1], h.2, by simp [timedWait, hp, h]⟩)
    · exact .inr (.inr ⟨by simp, by simpa using h, by simp only [timedWait, hp, if_neg h]⟩)

/-- An exchange issues its request, takes the bus agent's octet, or stays (R103). -/
theorem exchangeOctet_cases (tx : Octet) (dst : Dst) (s : State) (h : microOpAt s.seq = some (.xfer tx dst)) :
    (s.pend = none ∧ exchangeOctet tx s = .next (issue (.xfer tx) s)) ∨
    (∃ rx, s.pend = some (.xfer tx) ∧ s.move = .busAnswer rx ∧ exchangeOctet tx s = .next (takeOctet tx dst rx s)) ∨
    (s.pend ≠ none ∧ ¬ (s.pend = some (.xfer tx) ∧ ∃ rx, s.move = .busAnswer rx) ∧ exchangeOctet tx s = .next s) := by
  have hd := exchangeDst_eq_some.2 h
  cases hp : s.pend with
  | none => exact .inl ⟨rfl, by simp [exchangeOctet, hd, hp]⟩
  | some r =>
    cases hm : s.move with
    | busAnswer rx =>
      by_cases hr : r = .xfer tx
      · exact .inr (.inl ⟨rx, by rw [hr], rfl, by simp [exchangeOctet, hd, hp, hm, hr]⟩)
      · exact .inr (.inr ⟨by simp, by simp [hr], by simp [exchangeOctet, hd, hp, hm, hr]⟩)
    | _ => exact .inr (.inr ⟨by simp, by simp, by simp [exchangeOctet, hd, hp, hm]⟩)

/-- At its position an exchange always answers a next state. -/
theorem exchangeOctet_next (tx : Octet) (dst : Dst) (s : State) (h : microOpAt s.seq = some (.xfer tx dst)) :
    ∃ t, exchangeOctet tx s = .next t := by
  rcases exchangeOctet_cases tx dst s h with ⟨-, h⟩ | ⟨rx, -, -, h⟩ | ⟨-, -, h⟩ <;> exact ⟨_, h⟩

@[simp] theorem storeOctet_lo_some (rx : Octet) (a : Word) : storeOctet .lo rx (some a) = some (a ||| rx.setWidth 16) := rfl
@[simp] theorem storeOctet_lo_none (rx : Octet) : storeOctet .lo rx none = none := rfl
@[simp] theorem storeOctet_discard (rx : Octet) (acc : Option Word) : storeOctet .none rx acc = acc := rfl

/-- The two octets of a read assemble big-endian, whatever ACC held before (R52, R103). -/
theorem storeOctet_hi_eq (rx : Octet) (acc : Option Word) : storeOctet .hi rx acc = some (rx ++ (0 : BitVec 8)) := by
  have : ∀ rx : Octet, rx.setWidth 16 <<< 8 = rx ++ (0 : BitVec 8) := by decide
  simp [storeOctet, this]

theorem storeOctet_lo_hi (rx1 rx2 : Octet) :
    storeOctet .lo rx2 (some (rx1 ++ (0 : BitVec 8))) = some (rx1 ++ rx2) := by
  have h : (rx1 ++ (0 : BitVec 8)) ||| rx2.setWidth 16 = rx1 ++ rx2 := by
    ext i hi
    simp only [BitVec.getElem_or, BitVec.getElem_append, BitVec.getElem_setWidth]
    split
    · rename_i hlt; simp [BitVec.getLsbD_eq_getElem hlt]
    · rename_i hge; simp [BitVec.getLsbD_of_ge rx2 i (by omega)]
  exact congrArg some h

/-! ### FINR -/

theorem frame_eq_acc {raw : Word} (h : s.acc = some raw) : s.frame = raw := by simp [State.frame, h]

theorem frame_eq_free (h : s.acc = none) : s.frame = Config.unwrittenFrame s.draws := by simp [State.frame, h]

/-- Over an ACC that holds a value, FINR's write is R128's and nothing else. -/
theorem writePosition_of_acc {raw : Word} (h : s.acc = some raw) :
    writePosition s = { s with result := pos raw s.res } := by
  simp [writePosition, frame_eq_acc h, h]

/-- Over an ACC that holds none, the frame is free and the fault of U14 is recorded. -/
theorem writePosition_of_none (h : s.acc = none) :
    writePosition s = { s with
      result := pos (Config.unwrittenFrame s.draws) s.res, accFault := true, draws := s.draws + 1 } := by
  simp [writePosition, frame_eq_free h, h]

/-! ### Readout -/

theorem readoutOf_eq_some {n : Nat} {v : Readout} (h : readoutOf n s = some v) :
    (n = 0 ∧ v = .result s.result) ∨ (n = 1 ∧ v = .status s.status) ∨ (n = 2 ∧ v = .config s.config) := by
  unfold readoutOf at h
  split at h <;> simp_all

end Sys2Proof.Machine
end

