-- ==== Sys2Proof/Laws/PerInstr.lean ====
section
/-! SUPPORT. Statements made per instruction: each instruction's code matches its row of spec/opcode_table.json. -/

namespace Sys2Proof.Laws.MatchesTable

/-- `match` and `mask` of a row, with its format's width, as spec/opcode_table.json gives them. -/
def row : Instr → Nat × Nat × Nat
  | .readPosition => (16, 0x0100, 0xFFFF)
  | .setZero => (16, 0x0200, 0xFFFF)
  | .resetDevice => (16, 0x0300, 0xFFFF)
  | .setResolution _ => (16, 0x0400, 0xFF00)
  | .wireNop => (8, 0x00, 0xFF)
  | .wireReset => (8, 0x60, 0xFF)
  | .wireZero => (8, 0x70, 0xFF)

/-- The width and the bits of a code. -/
def bits : Code → Nat × Nat
  | .command w => (16, w.toNat)
  | .octet b => (8, b.toNat)

/-- A well-formed instruction's code has its row's width and matches its row under the row's mask. -/
def Statement (i : Instr) : Prop :=
  i.WellFormed → (bits (encode i)).1 = (row i).1 ∧ (bits (encode i)).2 &&& (row i).2.2 = (row i).2.1

theorem readPosition : Statement .readPosition := fun _ => by decide
theorem setZero : Statement .setZero := fun _ => by decide
theorem resetDevice : Statement .resetDevice := fun _ => by decide
theorem setResolution (bits : Nat) : Statement (.setResolution bits) := fun _ => by
  have h : ∀ b : BitVec 8, (commandWord opSetResolution b).toNat &&& 0xFF00 = 0x0400 := by decide
  exact ⟨rfl, h _⟩
theorem wireNop : Statement .wireNop := fun _ => by decide
theorem wireReset : Statement .wireReset := fun _ => by decide
theorem wireZero : Statement .wireZero := fun _ => by decide

end Sys2Proof.Laws.MatchesTable
end

