-- ==== Sys2Proof/Laws/Step.lean ====
section
/-! SUPPORT. Everything a step can do, said once. -/

namespace Sys2Proof.Machine

/-- The ways in which the block can react to the environment's move and go on: `Reaction s u` says that `u` is one of them.
Each constructor carries the guard under which it happens. -/
inductive Reaction (s : State) : State → Prop where
  /-- R210. -/
  | reset : s.move = .blockReset → Reaction s (blockReset s)
  /-- R185. -/
  | drop (cmd : Word) : s.move = .present cmd → s.busy = true → Reaction s (dropCommand cmd s)
  /-- R120, R150, R151. -/
  | start (cmd : Word) (p : Prog) : s.move = .present cmd → s.busy = false →
      (cmd, p) ∈ ([(0x0100, .read), (0x0200, .zero), (0x0300, .rstd)] : List (Word × Prog)) →
      Reaction s (startProgram p (beginCommand cmd s))
  /-- R170. -/
  | configure (arg : BitVec 8) (code : BitVec 2) (cf : BitVec 8) : s.move = .present (commandWord opSetResolution arg) →
      s.busy = false →
      (arg = 12 ∧ code = errOk ∧ cf = setRes14 false s.config) ∨ (arg = 14 ∧ code = errOk ∧ cf = setRes14 true s.config) ∨
        (arg ≠ 12 ∧ arg ≠ 14 ∧ code = errCfg ∧ cf = s.config) →
      Reaction s (completeWith code { beginCommand (commandWord opSetResolution arg) s with config := cf })
  /-- R184. -/
  | illegal (cmd : Word) (why : DecodeReject) : s.move = .present cmd → s.busy = false → decodeCommand cmd = .error why →
      Reaction s (completeWith errIllegalCmd (beginCommand cmd s))
  /-- R34. -/
  | readout (n : Nat) (v : Readout) : s.move = .readRegister n → readoutOf n s = some v →
      Reaction s { s with readouts := s.readouts ++ [v] }
  /-- R110: idle, no sequencer step. -/
  | idle : s.seq.prog = .none → s.HostSilent → Reaction s s
  /-- R101, R102. -/
  | line (a : Bool) : microOpAt s.seq = some (if a then .csa else .csr) → s.HostSilent → Reaction s (setCs a s)
  /-- R103, R104: the request goes out. -/
  | issue (op : MicroOp) (r : Request) : microOpAt s.seq = some op → requestOf op = some r → s.pend = none →
      s.HostSilent → Reaction s (issue r s)
  /-- R103, R104: the outstanding request has no answer yet. -/
  | stay (op : MicroOp) (r : Request) : microOpAt s.seq = some op → requestOf op = some r → s.pend ≠ none →
      s.HostSilent →
      ¬ (s.pend = some r ∧ answers r s.move = true) → Reaction s s
  /-- R104: the wait has elapsed. -/
  | elapsed (op : MicroOp) (r : Request) (e : Event) (n : Nat) : microOpAt s.seq = some op →
      (op, r, e) ∈ ([(.wus n, .wus n, .waitUs n), (.wms n, .wms n, .waitMs n)] : List (MicroOp × Request × Event)) →
      s.pend = some r → s.move = .timerElapsed →
      Reaction s (record e (advance { s with pend := none }))
  /-- R103: the bus agent has answered. -/
  | octet (tx : Octet) (dst : Dst) (rx : Octet) : microOpAt s.seq = some (.xfer tx dst) →
      s.pend = some (.xfer tx) → s.move = .busAnswer rx → Reaction s (takeOctet tx dst rx s)
  /-- R128. -/
  | finr : microOpAt s.seq = some .finr → s.HostSilent → Reaction s (finishProgram (writePosition s))
  /-- R105. -/
  | fin : microOpAt s.seq = some .fin → s.HostSilent → Reaction s (finishProgram s)

variable {s t u : State}

theorem step_eq_next : step s = .next t ↔ ∃ u, react s = .next u ∧ t = endMove u := thenEndMove_eq_next

/-- The arm of an exchange's octet is that exchange (R80, R103). -/
theorem runMicroOp_xfer (tx : Octet) (dst : Dst) (s : State) (h : microOpAt s.seq = some (.xfer tx dst)) :
    runMicroOp (.xfer tx dst) s = exchangeOctet tx s := by
  obtain ⟨i, hi⟩ := octet_of_program_decodes h
  rcases decodeOctet_ok_cases hi with ⟨rfl, rfl⟩ | ⟨rfl, rfl⟩ | ⟨rfl, rfl⟩ <;> simp only [runMicroOp, hi] <;> rfl

theorem wait_reaction {op : MicroOp} {r : Request} {e : Event} {n : Nat} (hop : microOpAt s.seq = some op)
    (hm : s.HostSilent)
    (hw : (op, r, e) ∈ ([(.wus n, .wus n, .waitUs n), (.wms n, .wms n, .waitMs n)] : List (MicroOp × Request × Event))) :
    Reaction s (timedWait r e s) := by
  have hr : requestOf op = some r ∧ ∀ m, answers r m = true ↔ m = .timerElapsed := by
    simp only [List.mem_cons, List.not_mem_nil, or_false, Prod.mk.injEq] at hw
    rcases hw with ⟨rfl, rfl, rfl⟩ | ⟨rfl, rfl, rfl⟩ <;> exact ⟨rfl, fun m => by cases m <;> simp [answers]⟩
  rcases timedWait_cases r e s with ⟨hp, h⟩ | ⟨hp, ht, h⟩ | ⟨hp, hn, h⟩ <;> rw [h]
  · exact .issue op r hop hr.1 hp hm
  · exact .elapsed op r e n hop hw hp ht
  · exact .stay op r hop hr.1 hp hm (by simpa [hr.2] using hn)

theorem exchange_reaction {tx : Octet} {dst : Dst} (hop : microOpAt s.seq = some (.xfer tx dst))
    (hm : s.HostSilent)
    (h : exchangeOctet tx s = .next u) : Reaction s u := by
  rcases exchangeOctet_cases tx dst s hop with ⟨hp, h'⟩ | ⟨rx, hp, hb, h'⟩ | ⟨hp, hn, h'⟩ <;> rw [h'] at h
  · cases h; exact .issue _ _ hop rfl hp hm
  · cases h; exact .octet tx dst rx hop hp hb
  · cases h
    refine .stay _ _ hop rfl hp hm ?_
    intro hb
    apply hn
    refine ⟨hb.1, ?_⟩
    have := hb.2
    cases hmv : s.move <;> simp [hmv, answers] at this ⊢

theorem sequencerTurn_reaction (hm : s.HostSilent)
    (h : sequencerTurn s = .next u) : Reaction s u := by
  unfold sequencerTurn at h
  split at h
  case isTrue hp => cases h; exact .idle hp hm
  case isFalse =>
  split at h
  case h_2 => cases h
  case h_1 op hop =>
  cases op with
  | csa => cases h; exact .line true hop hm
  | csr => cases h; exact .line false hop hm
  | wus n => cases h; exact wait_reaction (n := n) hop hm (by simp)
  | wms n => cases h; exact wait_reaction (n := n) hop hm (by simp)
  | xfer tx dst => rw [runMicroOp_xfer tx dst s hop] at h; exact exchange_reaction hop hm h
  | finr => cases h; exact .finr hop hm
  | fin => cases h; exact .fin hop hm

theorem presentCommand_reaction {cmd : Word} (hm : s.move = .present cmd) (h : presentCommand cmd s = .next u) :
    Reaction s u := by
  unfold presentCommand at h
  split at h
  case isTrue hb => cases h; exact .drop cmd hm hb
  case isFalse hb =>
  have hb' : s.busy = false := by simpa using hb
  split at h
  case h_2 why hd => cases h; exact .illegal cmd why hm hb' hd
  case h_1 i hd =>
  rcases decodeCommand_ok_cases hd with ⟨rfl, hc⟩ | ⟨rfl, hc⟩ | ⟨rfl, hc⟩ | ⟨rfl, hc⟩
  · simp only [exec, execReadPosition, onCommand_idle _ _ hb', ← hc] at h
    cases h; exact .start cmd .read hm hb' (by subst hc; decide)
  · simp only [exec, execSetZero, onCommand_idle _ _ hb', ← hc] at h
    cases h; exact .start cmd .zero hm hb' (by subst hc; decide)
  · simp only [exec, execResetDevice, onCommand_idle _ _ hb', ← hc] at h
    cases h; exact .start cmd .rstd hm hb' (by subst hc; decide)
  · have ha : BitVec.ofNat 8 (argField cmd).toNat = argField cmd := by simp
    simp only [exec, execSetResolution, onCommand_idle _ _ hb', ha] at h
    cases h
    have hm' : s.move = .present (commandWord opSetResolution (argField cmd)) := hc ▸ hm
    have hn : ∀ k : BitVec 8, (argField cmd).toNat = k.toNat → argField cmd = k := fun _ => BitVec.eq_of_toNat_eq
    rw [hc, argField_commandWord]
    rcases configure_cases (argField cmd).toNat (beginCommand (commandWord opSetResolution (argField cmd)) s) with
      ⟨h, h'⟩ | ⟨h, h'⟩ | ⟨h, h2, h'⟩ <;> rw [h']
    · exact .configure _ _ _ hm' hb' (.inl ⟨hn 12 h, rfl, rfl⟩)
    · exact .configure _ _ _ hm' hb' (.inr (.inl ⟨hn 14 h, rfl, rfl⟩))
    · exact .configure _ _ _ hm' hb'
        (.inr (.inr ⟨fun e => h (by rw [e]; rfl), fun e => h2 (by rw [e]; rfl), rfl, rfl⟩))

/-- Everything the block can do in one step. -/
theorem react_cases (h : react s = .next u) : Reaction s u := by
  unfold react at h
  split at h
  case h_1 hm => cases h; exact .reset hm
  case h_2 cmd hm => exact presentCommand_reaction hm h
  case h_3 n hm =>
    unfold readRegister at h
    split at h
    case h_1 v hv => cases h; exact .readout n v hm hv
    case h_2 => cases h
  case h_4 hm => exact sequencerTurn_reaction (.inl hm) h
  case h_5 rx hm => exact sequencerTurn_reaction (.inr (.inr ⟨rx, hm⟩)) h
  case h_6 hm => exact sequencerTurn_reaction (.inr (.inl hm)) h

/-- Everything a step can do: a reaction, and then the environment's move is used up. -/
theorem step_cases (h : step s = .next t) : ∃ u, Reaction s u ∧ t = endMove u := by
  obtain ⟨u, hu, rfl⟩ := step_eq_next.1 h
  exact ⟨u, react_cases hu, rfl⟩

end Sys2Proof.Machine
end

