-- ==== Sys2Proof/Laws/Run.lean ====
section
/-! SUPPORT. Runs of the machine, one step at a time. -/

namespace Sys2Proof.Machine

theorem run_zero (s : State) : Sys2Proof.core.run 0 s = .next s := by simp only [Host.Core.run]

/-- A run of one step more starts with that step. -/
theorem run_succ (M : Host.Core) (n : Nat) (s : M.State) :
    M.run (n + 1) s = match M.step s with
      | .next t => M.run n t
      | .fault f => .fault f
      | .refused r => .refused r := by
  cases h : M.step s <;> simp only [Host.Core.run, h]

theorem run_of_step {n : Nat} {s t : State} (h : step s = .next t) :
    Sys2Proof.core.run (n + 1) s = Sys2Proof.core.run n t := by
  have h' : Sys2Proof.core.step s = .next t := h
  rw [run_succ Sys2Proof.core n s, h']

theorem step_of_run {n : Nat} {s t : State} (h : Sys2Proof.core.run (n + 1) s = .next t) :
    ∃ u, step s = .next u ∧ Sys2Proof.core.run n u = .next t := by
  rw [run_succ Sys2Proof.core n s] at h
  cases hs : Sys2Proof.core.step s with
  | next u => rw [hs] at h; exact ⟨u, hs, h⟩
  | fault f => rw [hs] at h; cases h
  | refused r => rw [hs] at h; cases h

/-- The invariant says nothing of what the environment will do. -/
theorem inv_withSchedule {s : State} (h : s.Inv) (moves : List Move) : ({ s with schedule := moves } : State).Inv :=
  ⟨h.busy_iff, h.idle_idx, h.in_program, h.pend_at, h.line, h.status_reserved, h.err_code, h.busy_status,
    h.config_reserved, h.result_range, h.acc_written⟩

/-- The move of a schedule that lists one. -/
@[simp] theorem move_cons (s : State) (m : Move) (ms : List Move) : ({ s with schedule := m :: ms } : State).move = m := rfl

end Sys2Proof.Machine
end

