-- ==== Sys2Proof/Tests/Slice0.lean ====
section
/-! SUPPORT. Tests, each one step on a small state, with results from spec/95_test_vectors.md or from the rule named; and a
witness for the hypotheses of every obligation that has some. -/

namespace Sys2Proof.Tests

open Sys2Proof.Machine

/-! ### Helpers -/

/-- Something of the next state, or none. -/
def next {α : Type} (f : State → α) : Answer → Option α
  | .next s => some (f s)
  | .fault _ => none
  | .refused _ => none

/-- An idle instance at 14 bits that has read 0x1234. -/
def finished : State :=
  { State.resetOf .bits14 with result := 0x1234, status := 0x02, acc := some 0x9234 }

/-- A running instance at 14 bits: program position, request outstanding, the environment's moves. -/
def running (p : Prog) (idx : BitVec 4) (pend : Option Request) (moves : List Move) : State :=
  { State.resetOf .bits14 with
    status := 0x01, seq := ⟨p, idx⟩, csAct := lineAt ⟨p, idx⟩, pend := pend, schedule := moves
    acc := some 0x9200 }

/-- An idle instance under some moves. -/
def idle (moves : List Move) : State := { finished with schedule := moves }

/-! ### Well-formedness, encodings -/

theorem test_setResolution_256_illFormed : Instr.wellFormed (.setResolution 256) = false := by decide
theorem test_setResolution_255_wellFormed : Instr.wellFormed (.setResolution 255) = true := by decide

/-- Words of R71 written out bit by bit. -/
theorem test_decode_commands :
    decodeTableWord 16 0b0000000100000000 = some .readPosition ∧ decodeTableWord 16 0b0000001000000000 = some .setZero ∧
    decodeTableWord 16 0b0000001100000000 = some .resetDevice ∧
    decodeTableWord 16 0b0000010000001101 = some (.setResolution 13) := by decide

/-- Octets of R80 written out bit by bit. -/
theorem test_decode_octets :
    decodeTableWord 8 0b00000000 = some .wireNop ∧ decodeTableWord 8 0b01100000 = some .wireReset ∧
    decodeTableWord 8 0b01110000 = some .wireZero ∧ decodeTableWord 8 0b01110001 = none := by decide

/-- The illegal words of 95_test_vectors.md section 2.1. -/
theorem test_decode_illegal :
    ([0x0000, 0x0060, 0x0070, 0x0101, 0x01FF, 0x0280, 0x0500, 0x8000, 0xFF00] : List Nat).all
      (fun w => decodeTableWord 16 w == none) = true := by decide

/-- Program P1 of 95_test_vectors.md section 3: its two encodings. -/
theorem test_assemble_P1 :
    AsmLine.word { item := .instr (.setResolution 14) } = some 0x040E ∧
    AsmLine.word { item := .instr .readPosition, rx := [0x92, 0x34] } = some 0x0100 := by decide

/-! ### Parity validator and normalizer: 95_test_vectors.md section 2.2 -/

theorem test_pos_14 :
    ([(0x0000, 0xFFFF), (0x4000, 0xFFFF), (0x8000, 0xFFFF), (0xC000, 0x0000), (0x8001, 0x0001), (0x4002, 0x0002),
      (0x0003, 0x0003), (0x9234, 0x1234), (0x6AAA, 0x2AAA), (0xFFFC, 0x3FFC), (0x3FFF, 0x3FFF), (0xFFFF, 0xFFFF),
      (0x7FFF, 0xFFFF), (0xBFFF, 0xFFFF), (0xC00A, 0x000A), (0xC003, 0xFFFF)] : List (Word × Word)).all
      (fun v => pos v.1 .bits14 == v.2) = true := by decide

theorem test_pos_12 :
    ([(0x4000, 0xFFFF), (0xC000, 0x0000), (0x8001, 0x0000), (0x8004, 0x0001), (0xC0FF, 0x003F), (0x9234, 0x048D),
      (0x9555, 0x0555), (0x6AAA, 0x0AAA), (0x3FFF, 0x0FFF), (0xFFFF, 0xFFFF), (0xC00A, 0x0002)] : List (Word × Word)).all
      (fun v => pos v.1 .bits12 == v.2) = true := by decide

theorem test_enc : enc 0x1234 = 0x9234 ∧ enc 0x3FFF = 0x3FFF ∧ enc 0 = 0xC000 := by decide

/-! ### Instructions -/

/-- R120: acceptance. -/
theorem test_readPosition_starts :
    next (fun t => (t.status, t.seq)) (step (finished.withFetchWord 16 0x0100)) = some (0x01, ⟨.read, 0⟩) := by decide

/-- 95_test_vectors.md section 2.4: RES 12, octets 0x92, 0x34 give 0x048D; STATUS 0x02. -/
theorem test_readPosition_result :
    next (fun t => (t.result, t.status, t.seq))
      (step { running .read 11 none [] with acc := some 0x9234, config := 0x00 }) = some (0x048D, 0x02, ⟨.none, 0⟩) := by decide

/-- R150: acceptance. -/
theorem test_setZero_starts :
    next (fun t => (t.status, t.seq)) (step (finished.withFetchWord 16 0x0200)) = some (0x01, ⟨.zero, 0⟩) := by decide

/-- R105's example: at the end of SET_ZERO, STATUS goes from 0x01 to 0x02. -/
theorem test_setZero_ends :
    next (fun t => (t.status, t.result, t.seq)) (step { running .zero 12 none [] with result := 0x0ABC }) =
      some (0x02, 0x0ABC, ⟨.none, 0⟩) := by decide

/-- R151: acceptance. -/
theorem test_resetDevice_starts :
    next (fun t => (t.status, t.seq)) (step (finished.withFetchWord 16 0x0300)) = some (0x01, ⟨.rstd, 0⟩) := by decide

/-- 95_test_vectors.md section 2.7: a command during a transaction, STATUS 0x11, and the transaction stands where it stood. -/
theorem test_resetDevice_dropped :
    next (fun t => (t.status, t.seq, t.trace)) (step (running .rstd 5 (some (.wus 3)) [.present 0x0300])) =
      some (0x11, ⟨.rstd, 5⟩, [.drop 0x0300]) := by decide

/-- 95_test_vectors.md section 2.6: 0x040C at RES 14. -/
theorem test_setResolution_12 :
    next (fun t => (t.config, t.status, t.result)) (step (finished.withFetchWord 16 0x040C)) = some (0x00, 0x02, 0x1234) := by
  decide

/-- 95_test_vectors.md section 2.6: 0x040D at RES 14 is CFG_ERR. -/
theorem test_setResolution_13 :
    next (fun t => (t.config, t.status, t.result)) (step (finished.withFetchWord 16 0x040D)) = some (0x01, 0x06, 0x1234) := by
  decide

/-- R103's first example: READ at IDX 2, answer 0x92. -/
theorem test_wireNop_hi :
    next (fun t => (t.acc, t.seq, t.pend, t.trace)) (exec .wireNop (running .read 2 (some (.xfer 0x00)) [.busAnswer 0x92])) =
      some (some 0x9200, ⟨.read, 3⟩, none, [.xfer 0x00 0x92]) := by decide

/-- R103's second example: READ at IDX 8, answer 0x34. -/
theorem test_wireNop_lo :
    next (fun t => (t.acc, t.seq)) (exec .wireNop (running .read 8 (some (.xfer 0x00)) [.busAnswer 0x34])) =
      some (some 0x9234, ⟨.read, 9⟩) := by decide

/-- R84, R152: RSTD sends 0x60 at IDX 8 and discards the octet. -/
theorem test_wireReset_sent :
    next (fun t => (t.pend, t.seq)) (step (finished.withFetchWord 8 0x60)) = some (some (.xfer 0x60), ⟨.rstd, 8⟩) ∧
    next (fun t => (t.acc, t.trace)) (exec .wireReset (running .rstd 8 (some (.xfer 0x60)) [.busAnswer 0x22])) =
      some (some 0x9200, [.xfer 0x60 0x22]) := by decide

/-- R83, R152: ZERO sends 0x70 at IDX 8 and discards the octet. -/
theorem test_wireZero_sent :
    next (fun t => (t.pend, t.seq)) (step (finished.withFetchWord 8 0x70)) = some (some (.xfer 0x70), ⟨.zero, 8⟩) ∧
    next (fun t => (t.acc, t.trace)) (exec .wireZero (running .zero 8 (some (.xfer 0x70)) [.busAnswer 0x5A])) =
      some (some 0x9200, [.xfer 0x70 0x5A]) := by decide

/-- 95_test_vectors.md section 2.7: 0x0500 while BUSY = 0. -/
theorem test_illegal_word : next (fun t => t.status) (step (idle [.present 0x0500])) = some 0x0A := by decide

/-- 95_test_vectors.md section 2.8: reset during a READ. -/
theorem test_block_reset :
    next (fun t => (t.csN, t.seq, t.status, t.result, t.pend)) (step (running .read 8 (some (.xfer 0x00)) [.blockReset])) =
      some (true, ⟨.none, 0⟩, 0x00, 0xFFFF, none) := by decide

/-- 93_implementation_defined.md U14: FINR over an ACC that holds no value is recorded as a fault; R128, R180: it goes on. -/
theorem test_finr_unwritten :
    next (fun t => (t.accFault, t.status, t.seq, t.acc)) (step { running .read 11 none [] with acc := none }) =
      some (true, 0x02, ⟨.none, 0⟩, none) := by rfl

/-! ### Witnesses: states and operands that meet all hypotheses of a statement -/

/-- A READ that waits for its second octet (95_test_vectors.md, program P6). -/
def stalled (moves : List Move) : State := running .read 8 (some (.xfer 0x00)) moves

theorem stalled_silent_inv : (stalled []).Inv where
  busy_iff := by decide
  idle_idx := by intro h; cases h
  in_program := by decide
  pend_at := by intro r h; cases h; exact ⟨.xfer 0x00 .lo, by decide, rfl⟩
  line := by decide
  status_reserved := by decide
  err_code := by decide
  busy_status := by decide
  config_reserved := by decide
  result_range := .inl (by decide)
  acc_written := fun _ _ => ⟨0x9200, rfl, by decide⟩

theorem stalled_inv (moves : List Move) : (stalled moves).Inv := inv_withSchedule stalled_silent_inv moves

theorem idle_silent_inv : (idle []).Inv where
  busy_iff := by decide
  idle_idx := by decide
  in_program := by intro h; exact absurd rfl h
  pend_at := by intro r h; cases h
  line := by decide
  status_reserved := by decide
  err_code := by decide
  busy_status := by decide
  config_reserved := by decide
  result_range := .inr (by decide)
  acc_written := by intro h; cases h

theorem idle_inv (moves : List Move) : (idle moves).Inv := inv_withSchedule idle_silent_inv moves

/-- Two late answers and a silent move after the reset, and a sticky PFAULT before it. -/
theorem witness_BlockResetFromEveryState :
    (stalled [.blockReset, .busAnswer 0x34, .quiet, .timerElapsed, .present 0x0100]).move = .blockReset ∧
    next (fun t => (t.schedule.take 3).all (fun m => !m.ofHost))
      (step (stalled [.blockReset, .busAnswer 0x34, .quiet, .timerElapsed, .present 0x0100])) = some true ∧
    ∃ t, step { stalled [.blockReset] with status := 0x11 } = .next t ∧
      State.pfault { stalled [.blockReset] with status := 0x11 } = true ∧ t.pfault = false :=
  ⟨by decide, by decide, _, rfl, by decide, by decide⟩

theorem witness_IdleBlockIgnoresLateAnswers :
    (idle [.busAnswer 0xFF]).Idle ∧ (idle [.busAnswer 0xFF]).HostSilent ∧
    (idle [.timerElapsed]).Idle ∧ (idle [.timerElapsed]).HostSilent ∧ (idle []).Idle ∧ (idle []).HostSilent :=
  ⟨rfl, .inr (.inr ⟨_, rfl⟩), rfl, .inr (.inl rfl), rfl, .inl rfl⟩

/-- One word for each clause, the last two at the edges of the reserved codes. -/
theorem witness_CommandWordsDecode :
    ((0x0100 : Word).extractLsb' 8 8 = 0x01 ∧ (0x0100 : Word).extractLsb' 0 8 = 0x00) ∧
    ((0x0200 : Word).extractLsb' 8 8 = 0x02 ∧ (0x0200 : Word).extractLsb' 0 8 = 0x00) ∧
    ((0x0300 : Word).extractLsb' 8 8 = 0x03 ∧ (0x0300 : Word).extractLsb' 0 8 = 0x00) ∧
    (0x04FF : Word).extractLsb' 8 8 = 0x04 ∧
    ([0x0500, 0x0001, 0x0301] : List Word).all (fun w => decide (¬ (w.extractLsb' 8 8 = 0x04) ∧
      ¬ ((w.extractLsb' 8 8 = 0x01 ∨ w.extractLsb' 8 8 = 0x02 ∨ w.extractLsb' 8 8 = 0x03) ∧ w.extractLsb' 0 8 = 0x00))) =
      true := by decide

theorem witness_DecodeOfEncode : Instr.WellFormed (.setResolution 255) ∧ Instr.WellFormed (.setResolution 0) := by decide

theorem witness_EncodeOfDecode :
    (match decode (.command 0x04FF) with | .ok i => decide (i = .setResolution 255) | .error _ => false) = true ∧
    (match decode (.octet 0x70) with | .ok i => decide (i = .wireZero) | .error _ => false) = true := by decide

theorem witness_StepRunsThePresentedCommand :
    (idle [.present 0x0100]).busy = false ∧ (idle [.present 0x0100]).move = .present 0x0100 ∧
    decode (.command 0x0100) = .ok .readPosition := ⟨by decide, rfl, rfl⟩

theorem witness_StepRunsTheOctetAtSeq :
    microOpAt (running .rstd 8 none []).seq = some (.xfer 0x60 .none) ∧ decode (.octet 0x60) = .ok .wireReset ∧
    (running .rstd 8 none []).HostSilent := ⟨by decide, rfl, .inl rfl⟩

theorem witness_PlacedInstructionRunsNext :
    0x04FF < 2 ^ 16 ∧ decodeTableWord 16 0x04FF = some (.setResolution 255) ∧ 0x70 < 2 ^ 8 ∧
    decodeTableWord 8 0x70 = some .wireZero := by decide

theorem witness_BusCommandsStartTheirProgram :
    ((.resetDevice, .rstd, 0x0300) : Instr × Prog × Word) ∈
      ([(.readPosition, .read, 0x0100), (.setZero, .zero, 0x0200), (.resetDevice, .rstd, 0x0300)] :
        List (Instr × Prog × Word)) ∧ (idle []).busy = false := by decide

/-- Both halves, at the edges of the legal numbers. -/
theorem witness_SetResolutionConfiguresOrRejects :
    (idle []).busy = false ∧ (stalled []).busy = true ∧
    ([0, 11, 12, 13, 14, 15, 255] : List Nat).all (fun b => decide (b < 256)) = true := by decide

theorem witness_IllegalWordIsRejected :
    (idle [.present 0x0101]).busy = false ∧ (idle [.present 0x0101]).move = .present 0x0101 ∧
    decodeCommand 0x0101 = .error (.argNotZero 0x01 0x01) := ⟨by decide, rfl, rfl⟩

theorem witness_WordWhileBusyIsDropped :
    (stalled [.present 0x0500]).busy = true ∧ (stalled [.present 0x0500]).move = .present 0x0500 := by decide

theorem witness_BusCommandsWhileBusyAreDropped :
    ((.setZero, 0x0200) : Instr × Word) ∈
      ([(.readPosition, 0x0100), (.setZero, 0x0200), (.resetDevice, 0x0300)] : List (Instr × Word)) ∧
    (stalled []).busy = true := by decide

/-- The three wire octets with their rows. -/
def wireRows : List (Instr × Octet) := [(.wireNop, 0x00), (.wireReset, 0x60), (.wireZero, 0x70)]

theorem witness_WireOctetsIssueTheirRequest :
    ((.wireReset, 0x60) : Instr × Octet) ∈ wireRows ∧
    microOpAt (running .rstd 8 none []).seq = some (.xfer 0x60 .none) ∧ (running .rstd 8 none []).pend = none := by decide

/-- One state for each destination, and LO over an ACC that holds no value. -/
theorem witness_WireOctetsTakeTheAnswer :
    ((.wireNop, 0x00) : Instr × Octet) ∈ wireRows ∧ ((.wireZero, 0x70) : Instr × Octet) ∈ wireRows ∧
    (let s := running .read 2 (some (.xfer 0x00)) [.busAnswer 0xFF]
     microOpAt s.seq = some (.xfer 0x00 .hi) ∧ s.pend = some (.xfer 0x00) ∧ s.move = .busAnswer 0xFF) ∧
    (let s := stalled [.busAnswer 0x00]
     microOpAt s.seq = some (.xfer 0x00 .lo) ∧ s.pend = some (.xfer 0x00) ∧ s.move = .busAnswer 0x00 ∧
       s.acc = some 0x9200) ∧
    (let s : State := { stalled [.busAnswer 0x00] with acc := none }
     microOpAt s.seq = some (.xfer 0x00 .lo) ∧ s.pend = some (.xfer 0x00) ∧ s.move = .busAnswer 0x00 ∧ s.acc = none) ∧
    (let s := running .zero 8 (some (.xfer 0x70)) [.busAnswer 0x5A]
     microOpAt s.seq = some (.xfer 0x70 .none) ∧ s.pend = some (.xfer 0x70) ∧ s.move = .busAnswer 0x5A) := by decide

theorem witness_WireOctetsWaitForTheBus :
    ((.wireNop, 0x00) : Instr × Octet) ∈ wireRows ∧ microOpAt (stalled []).seq = some (.xfer 0x00 .lo) ∧
    (stalled []).pend = some (.xfer 0x00) ∧ ∀ rx, (stalled []).move ≠ .busAnswer rx :=
  ⟨by decide, by decide, rfl, fun _ h => by cases h⟩

theorem witness_WireOctetsElsewhereAreRefused :
    ((.wireNop, 0x00) : Instr × Octet) ∈ wireRows ∧ ∀ dst, microOpAt (idle []).seq ≠ some (.xfer 0x00 dst) :=
  ⟨by decide, fun dst => by cases dst <;> decide⟩

theorem witness_CsaAssertsTheLine :
    microOpAt (running .read 0 none []).seq = some .csa ∧ (running .read 0 none []).HostSilent ∧
    microOpAt (running .read 4 none []).seq = some .csa := ⟨by decide, .inl rfl, by decide⟩

theorem witness_CsrReleasesTheLine :
    microOpAt (running .zero 10 none []).seq = some .csr ∧ (running .zero 10 none []).HostSilent ∧
    microOpAt ⟨.read, 8⟩ = some (.xfer 0x00 .lo) := ⟨by decide, .inl rfl, by decide⟩

/-- A microsecond and a millisecond wait, each clause. -/
theorem witness_WaitsIssueStayAndEnd :
    microOpAt (running .read 1 none []).seq = some (.wus 3) ∧ (running .read 1 none []).HostSilent ∧
    (running .read 1 none []).pend = none ∧
    microOpAt (running .zero 11 (some (.wms 250)) [.quiet]).seq = some (.wms 250) ∧
    (running .zero 11 (some (.wms 250)) [.quiet]).HostSilent ∧
    (running .zero 11 (some (.wms 250)) [.quiet]).move ≠ .timerElapsed ∧
    (running .zero 11 (some (.wms 250)) [.timerElapsed]).HostSilent ∧
    (running .zero 11 (some (.wms 250)) [.timerElapsed]).move = .timerElapsed :=
  ⟨by decide, .inl rfl, rfl, by decide, .inl rfl, by decide, .inr (.inl rfl), rfl⟩

theorem witness_FinEndsTheCommand :
    microOpAt (running .rstd 12 none []).seq = some .fin ∧ (running .rstd 12 none []).HostSilent := ⟨by decide, .inl rfl⟩

theorem witness_FinrWritesThePosition :
    microOpAt (running .read 11 none []).seq = some .finr ∧ (running .read 11 none []).HostSilent ∧
    (running .read 11 none []).acc = some 0x9200 ∧ ({ running .read 11 none [] with acc := none } : State).acc = none :=
  ⟨by decide, .inl rfl, rfl, rfl⟩

theorem witness_PositionSelectsAndNormalizes : chk 0x3FFF = true ∧ chk 0xFFFF = false := by decide

theorem witness_SingleBitCorruptionIsDetected : chk 0x9234 = true ∧ 0 < 16 ∧ 15 < 16 := by decide

/-- Different groups (bits 15 and 0), the same group (bits 15 and 1). -/
theorem witness_DoubleBitCorruptionByGroup :
    chk 0x9234 = true ∧ (15 < 16 ∧ 0 < 16 ∧ 15 ≠ 0 ∧ 15 % 2 ≠ 0 % 2) ∧ (1 < 16 ∧ 15 ≠ 1 ∧ 15 % 2 = 1 % 2) := by decide

theorem witness_TwelveBitReadDropsLowBits :
    (3 : BitVec 14).toNat / 4 = (0 : BitVec 14).toNat / 4 ∧ chk 0x0003 = true ∧
    ∃ s : State, microOpAt s.seq = some .finr ∧ s.HostSilent ∧ s.acc = some 0x0003 ∧ s.res = .bits12 :=
  ⟨by decide, by decide, { running .read 11 none [] with acc := some 0x0003, config := 0x00 }, by decide, .inl rfl, rfl,
    by decide⟩

theorem witness_ReadoutGivesTheRegister :
    (idle [.readRegister 2]).move = .readRegister 2 ∧
    ((2, .config (idle []).config) : Nat × Readout) ∈
      ([(0, .result (idle []).result), (1, .status (idle []).status), (2, .config (idle []).config)] : List (Nat × Readout)) := by
  decide

theorem witness_UnknownRegisterIsRefused : (stalled [.readRegister 3]).move = .readRegister 3 ∧ 3 ≤ 3 := by decide

theorem witness_StepKeepsTheInvariant : (stalled [.busAnswer 0x34]).Inv ∧ ∃ t, step (stalled [.busAnswer 0x34]) = .next t :=
  ⟨stalled_inv _, _, rfl⟩

theorem witness_BlockNeverHalts :
    (stalled [.readRegister 2]).Inv ∧ readsKnownRegisters (stalled [.readRegister 2]).move = true := ⟨stalled_inv _, by decide⟩

theorem witness_LineFollowsTheTrace :
    ({ stalled [] with trace := [.cs true] } : State).csAct = traceLine [.cs true] ∧
    ∃ t, step { stalled [] with trace := [.cs true] } = .next t := ⟨by decide, _, rfl⟩

theorem witness_ObservationOnlyGrows : ∃ t, step (idle [.present 0x0500]) = .next t := ⟨_, rfl⟩

theorem witness_PfaultIsSticky :
    (∃ t, step (stalled [.present 0x0100]) = .next t) ∧ (stalled [.present 0x0100]).move ≠ .blockReset := ⟨⟨_, rfl⟩, by decide⟩

theorem witness_OnlyFinrWritesResult :
    ∃ t, step { running .read 11 none [] with acc := some 0x9234 } = .next t ∧ t.result ≠ 0xFFFF := ⟨_, rfl, by decide⟩

theorem witness_OnlySetResolutionWritesConfig :
    ∃ t, step (idle [.present 0x040C]) = .next t ∧ t.config ≠ (idle [.present 0x040C]).config := ⟨_, rfl, by decide⟩

theorem witness_OnlyBusCommandsMoveBusy :
    (∃ t, step (idle [.present 0x0300]) = .next t ∧ (idle [.present 0x0300]).busy = false ∧ t.busy = true) ∧
    ∃ t, step (running .zero 12 none []) = .next t ∧ (running .zero 12 none []).busy = true ∧ t.busy = false :=
  ⟨⟨_, rfl, by decide, by decide⟩, _, rfl, by decide, by decide⟩

theorem witness_NothingShowsBeforeCompletion :
    ∃ t, step (stalled [.busAnswer 0x34]) = .next t ∧ (stalled [.busAnswer 0x34]).busy = true ∧ t.busy = true :=
  ⟨_, rfl, by decide, by decide⟩

/-- One state for each of the three outcomes. -/
theorem witness_ParameterAndScheduleGoOn :
    (∃ t, step (stalled [.blockReset]) = .next t) ∧
    step (running .read 12 none []) = .fault (.noMicroOperation ⟨.read, 12⟩) ∧
    step (stalled [.readRegister 3]) = .refused (.noSuchRegister 3) := ⟨⟨_, rfl⟩, rfl, rfl⟩

/-- Both ends of the range. -/
theorem witness_LineIsHeldThroughTheTransaction :
    (stalled [.quiet]).Inv ∧ (stalled [.quiet]).seq.prog ≠ .none ∧ 1 ≤ (stalled [.quiet]).seq.idx ∧
    (stalled [.quiet]).seq.idx ≤ 9 ∧ (stalled [.quiet]).move ≠ .blockReset ∧ ∃ t, step (stalled [.quiet]) = .next t :=
  ⟨stalled_inv _, by decide, by decide, by decide, by decide, _, rfl⟩

/-- The moves of a served command with a readout before, inside and after it. -/
def readMoves (cmd : Word) (served : List Move) : List Move :=
  .readRegister 0 :: .present cmd :: (served.take 3 ++ .readRegister 2 :: served.drop 3 ++ [.readRegister 1])

theorem witness_ReadPositionCompletes :
    (let moves := readMoves 0x0100 (serve readProgram [0x92, 0x34] [2, 0, 5])
     moves.all readsKnownRegisters = true ∧
     withoutReadouts moves = .present 0x0100 :: serve readProgram [0x92, 0x34] [2, 0, 5]) ∧
    ∃ s : State, s.Inv ∧ s.Idle ∧ s.schedule = readMoves 0x0100 (serve readProgram [0x92, 0x34] [2, 0, 5]) ++ [.quiet] :=
  ⟨by decide, idle _, idle_inv _, rfl, rfl⟩

theorem witness_DeviceCommandsComplete :
    ((0x0300, rstdProgram) : Word × List MicroOp) ∈
      ([(0x0200, zeroProgram), (0x0300, rstdProgram)] : List (Word × List MicroOp)) ∧
    (let moves := readMoves 0x0300 (serve rstdProgram [0x11, 0x22] [1])
     moves.all readsKnownRegisters = true ∧
     withoutReadouts moves = .present 0x0300 :: serve rstdProgram [0x11, 0x22] [1]) ∧
    ∃ s : State, s.Inv ∧ s.Idle ∧ s.schedule = readMoves 0x0300 (serve rstdProgram [0x11, 0x22] [1]) ++ [] :=
  ⟨by decide, by decide, idle _, idle_inv _, rfl, rfl⟩

theorem witness_UnansweredRequestIsStuck :
    (stalled [.timerElapsed, .present 0x0100, .readRegister 2]).Inv ∧
    (stalled [.timerElapsed, .present 0x0100, .readRegister 2]).pend = some (.xfer 0x00) ∧
    neverAnswers (.xfer 0x00) [.timerElapsed, .present 0x0100, .readRegister 2] = true ∧
    ([.timerElapsed, .present 0x0100, .readRegister 2] : List Move).all readsKnownRegisters = true :=
  ⟨stalled_inv _, rfl, by decide, by decide⟩

theorem witness_StaleAccReachesNothing :
    ¬ ((idle [.present 0x0100]).seq.prog = .read ∧ 3 ≤ (idle [.present 0x0100]).seq.idx) ∧
    ∃ t, Sys2Proof.core.run 1 (idle [.present 0x0100]) = .next t := ⟨by decide, _, rfl⟩

theorem witness_NoLegalRunReadsAnUnwrittenAcc :
    ((stalled [.busAnswer 0x34]).Inv ∧ ∃ t, step (stalled [.busAnswer 0x34]) = .next t) ∧
    ∃ t, step { stalled [] with accFault := true } = .next t ∧ (stalled []).move ≠ .blockReset :=
  ⟨⟨stalled_inv _, _, rfl⟩, _, rfl, by decide⟩

end Sys2Proof.Tests
end

/-! SUPPORT. What a step takes from the schedule: its first move, and nothing after it (log entry 1); and the two fields that
no reaction writes, the parameter (R7, R38; log entry 3) and the schedule. -/

namespace Sys2Proof.Machine

variable {s u : State} {moves : List Move}

/-! ### The sequencer's turn and the command port, case by case -/

theorem sequencerTurn_idle (h : s.seq.prog = .none) : sequencerTurn s = .next s := by
  simp only [sequencerTurn, if_pos h]

theorem sequencerTurn_running {op : MicroOp} (h : microOpAt s.seq = some op) : sequencerTurn s = runMicroOp op s := by
  simp only [sequencerTurn, if_neg (prog_ne_none_of_microOpAt h), h]

theorem sequencerTurn_past_end (hp : s.seq.prog ≠ .none) (h : microOpAt s.seq = none) :
    sequencerTurn s = .fault (.noMicroOperation s.seq) := by
  simp only [sequencerTurn, if_neg hp, h]

theorem presentCommand_busy (cmd : Word) (hb : s.busy = true) : presentCommand cmd s = .next (dropCommand cmd s) := by
  simp [presentCommand, hb]

theorem presentCommand_legal {cmd : Word} {i : Instr} (hb : s.busy = false) (hd : decodeCommand cmd = .ok i) :
    presentCommand cmd s = exec i s := by
  simp [presentCommand, hb, hd]

theorem presentCommand_illegal {cmd : Word} {why : DecodeReject} (hb : s.busy = false)
    (hd : decodeCommand cmd = .error why) :
    presentCommand cmd s = .next (rejectWith errIllegalCmd (beginCommand cmd s)) := by
  simp [presentCommand, hb, hd]

/-! ### Another schedule around the same block -/

/-- The same block under another environment. -/
def State.withSchedule (s : State) (moves : List Move) : State := { s with schedule := moves }

/-- Change the state of an answer that goes on; a stop is a stop. -/
def mapNext (f : State → State) : Answer → Answer
  | .next s => .next (f s)
  | .fault r => .fault r
  | .refused r => .refused r

@[simp] theorem withSchedule_seq (s : State) (moves : List Move) : (s.withSchedule moves).seq = s.seq := rfl
@[simp] theorem withSchedule_pend (s : State) (moves : List Move) : (s.withSchedule moves).pend = s.pend := rfl

/-! ### Each operation reacts alike under another schedule with the same first move -/

/-- Acceptance and drop do not look at the schedule. -/
theorem onCommand_withSchedule (cmd : Word) {k : State → State}
    (hk : ∀ s moves, k (State.withSchedule s moves) = (k s).withSchedule moves) :
    onCommand cmd k (s.withSchedule moves) = mapNext (·.withSchedule moves) (onCommand cmd k s) := by
  cases hb : s.busy with
  | true =>
    rw [onCommand_busy cmd k hb, onCommand_busy cmd k (s := s.withSchedule moves) hb]
    rfl
  | false =>
    rw [onCommand_idle cmd k hb, onCommand_idle cmd k (s := s.withSchedule moves) hb]
    exact congrArg _ (hk (beginCommand cmd s) moves)

theorem configure_withSchedule (bits : Nat) (s : State) (moves : List Move) :
    configure bits (s.withSchedule moves) = (configure bits s).withSchedule moves := by
  unfold configure
  cases resolutionOfBits bits <;> rfl

theorem timedWait_withSchedule (r : Request) (e : Event) (hm : (s.withSchedule moves).move = s.move) :
    timedWait r e (s.withSchedule moves) = (timedWait r e s).withSchedule moves := by
  simp only [timedWait, hm, withSchedule_pend]
  cases s.pend with
  | none => rfl
  | some r' =>
    dsimp only
    by_cases h : r' = r ∧ s.move = .timerElapsed
    · rw [if_pos h, if_pos h]
      rfl
    · rw [if_neg h, if_neg h]

theorem exchangeOctet_withSchedule (tx : Octet) (hm : (s.withSchedule moves).move = s.move) :
    exchangeOctet tx (s.withSchedule moves) = mapNext (·.withSchedule moves) (exchangeOctet tx s) := by
  simp only [exchangeOctet, hm, withSchedule_seq, withSchedule_pend]
  cases exchangeDst tx s.seq with
  | none => rfl
  | some dst =>
    cases s.pend with
    | none => rfl
    | some r =>
      cases s.move with
      | busAnswer rx =>
        dsimp only
        by_cases h : r = .xfer tx
        · rw [if_pos h, if_pos h]
          rfl
        · rw [if_neg h, if_neg h]
          rfl
      | _ => rfl

theorem exec_withSchedule (i : Instr) (hm : (s.withSchedule moves).move = s.move) :
    exec i (s.withSchedule moves) = mapNext (·.withSchedule moves) (exec i s) := by
  cases i with
  | readPosition | setZero | resetDevice => exact onCommand_withSchedule _ fun _ _ => rfl
  | setResolution bits => exact onCommand_withSchedule _ (configure_withSchedule bits)
  | wireNop | wireReset | wireZero => exact exchangeOctet_withSchedule _ hm

theorem runMicroOp_withSchedule (op : MicroOp) (hm : (s.withSchedule moves).move = s.move) :
    runMicroOp op (s.withSchedule moves) = mapNext (·.withSchedule moves) (runMicroOp op s) := by
  cases op with
  | csa | csr | finr | fin => rfl
  | wus n | wms n => exact congrArg _ (timedWait_withSchedule _ _ hm)
  | xfer tx dst =>
    simp only [runMicroOp]
    cases decodeOctet tx with
    | ok i => exact exec_withSchedule i hm
    | error why => rfl

theorem sequencerTurn_withSchedule (hm : (s.withSchedule moves).move = s.move) :
    sequencerTurn (s.withSchedule moves) = mapNext (·.withSchedule moves) (sequencerTurn s) := by
  by_cases hidle : s.seq.prog = .none
  · rw [sequencerTurn_idle hidle, sequencerTurn_idle (s := s.withSchedule moves) hidle]
    rfl
  · cases hop : microOpAt s.seq with
    | some op =>
      rw [sequencerTurn_running hop, sequencerTurn_running (s := s.withSchedule moves) hop]
      exact runMicroOp_withSchedule op hm
    | none =>
      rw [sequencerTurn_past_end hidle hop, sequencerTurn_past_end (s := s.withSchedule moves) hidle hop]
      rfl

theorem presentCommand_withSchedule (cmd : Word) (hm : (s.withSchedule moves).move = s.move) :
    presentCommand cmd (s.withSchedule moves) = mapNext (·.withSchedule moves) (presentCommand cmd s) := by
  cases hb : s.busy with
  | true =>
    rw [presentCommand_busy cmd hb, presentCommand_busy (s := s.withSchedule moves) cmd hb]
    rfl
  | false =>
    cases hd : decodeCommand cmd with
    | ok i =>
      rw [presentCommand_legal hb hd, presentCommand_legal (s := s.withSchedule moves) hb hd]
      exact exec_withSchedule i hm
    | error why =>
      rw [presentCommand_illegal hb hd, presentCommand_illegal (s := s.withSchedule moves) hb hd]
      rfl

theorem readRegister_withSchedule (n : Nat) (s : State) (moves : List Move) :
    readRegister n (s.withSchedule moves) = mapNext (·.withSchedule moves) (readRegister n s) := by
  have hr : readoutOf n (s.withSchedule moves) = readoutOf n s := rfl
  simp only [readRegister, hr]
  cases readoutOf n s <;> rfl

/-! ### The reaction and the step -/

/-- The block reacts to the first move only (log entry 1). -/
theorem react_withSchedule (hm : (s.withSchedule moves).move = s.move) :
    react (s.withSchedule moves) = mapNext (·.withSchedule moves) (react s) := by
  simp only [react, hm]
  cases s.move with
  | blockReset => rfl
  | present cmd => exact presentCommand_withSchedule cmd hm
  | readRegister n => exact readRegister_withSchedule n s moves
  | quiet | busAnswer rx | timerElapsed => exact sequencerTurn_withSchedule hm

/-- The moves after the first go through a step unread: whatever they are, the answer is the same, and they are what its
schedule holds. -/
theorem step_withSchedule_move_cons (s : State) (later : List Move) :
    step (s.withSchedule (s.move :: later)) = mapNext (·.withSchedule later) (step s) := by
  rw [step, step, react_withSchedule (move_cons s s.move later)]
  cases react s <;> rfl

/-- Neither the parameter nor the schedule is the block's to write (R38; log entry 1). -/
theorem Reaction.keeps_initRes_and_schedule (h : Reaction s u) : u.initRes = s.initRes ∧ u.schedule = s.schedule := by
  cases h <;> simp

/-- Settles O49: a step is a reaction, which keeps both fields, and then the use of the first move; and the reaction commutes
with a change of the moves after that one. -/
theorem parameterAndScheduleGoOn : Obligations.ParameterAndScheduleGoOn := by
  unfold Obligations.ParameterAndScheduleGoOn
  constructor
  · intro s t h
    obtain ⟨u, hu, rfl⟩ := step_cases h
    obtain ⟨hinit, hsched⟩ := hu.keeps_initRes_and_schedule
    exact ⟨hinit, congrArg List.tail hsched⟩
  · intro s later
    have hstep := step_withSchedule_move_cons s later
    exact ⟨fun t h => hstep.trans (congrArg _ h), fun f h => hstep.trans (congrArg _ h),
      fun r h => hstep.trans (congrArg _ h)⟩

end Sys2Proof.Machine

/-! SUPPORT. The other direction of `step_cases`: a reaction under its guard is the step's answer. With it, a step is shown by
naming the reaction. -/

namespace Sys2Proof.Machine

variable {s u : State} {op : MicroOp} {r : Request} {tx : Octet} {dst : Dst}

/-! ### The step by the environment's move -/

theorem react_present {cmd : Word} (h : s.move = .present cmd) : react s = presentCommand cmd s := by
  simp only [react, h]

theorem react_hostSilent (h : s.HostSilent) : react s = sequencerTurn s := by
  rcases h with hm | hm | ⟨rx, hm⟩ <;> simp only [react, hm]

/-- Where a micro-operation stands at SEQ and no host acts, it runs (R110). -/
theorem react_running (hop : microOpAt s.seq = some op) (hm : s.HostSilent) : react s = runMicroOp op s :=
  (react_hostSilent hm).trans (sequencerTurn_running hop)

theorem hostSilent_move_ne_present (h : s.HostSilent) (cmd : Word) : s.move ≠ .present cmd := by
  rcases h with hm | hm | ⟨rx, hm⟩ <;> simp [hm]

theorem hostSilent_of_timerElapsed (h : s.move = .timerElapsed) : s.HostSilent := .inr (.inl h)

theorem hostSilent_of_busAnswer {rx : Octet} (h : s.move = .busAnswer rx) : s.HostSilent := .inr (.inr ⟨rx, h⟩)

/-! ### The rows of a wait and of a bus command -/

theorem wait_cases {e : Event} {n : Nat}
    (hw : (op, r, e) ∈ ([(.wus n, .wus n, .waitUs n), (.wms n, .wms n, .waitMs n)] : List (MicroOp × Request × Event))) :
    (op = .wus n ∧ r = .wus n ∧ e = .waitUs n) ∨ (op = .wms n ∧ r = .wms n ∧ e = .waitMs n) := by
  simpa using hw

theorem busCommand_cases {cmd : Word} {p : Prog}
    (hc : (cmd, p) ∈ ([(0x0100, .read), (0x0200, .zero), (0x0300, .rstd)] : List (Word × Prog))) :
    (cmd = 0x0100 ∧ p = .read) ∨ (cmd = 0x0200 ∧ p = .zero) ∨ (cmd = 0x0300 ∧ p = .rstd) := by
  simpa only [List.mem_cons, List.not_mem_nil, or_false, Prod.mk.injEq] using hc

/-! ### Waits and exchanges, an equation for each phase (R103, R104) -/

theorem timedWait_issues (e : Event) (hp : s.pend = none) : timedWait r e s = issue r s := by
  simp only [timedWait, hp]

theorem timedWait_stays (e : Event) (hp : s.pend ≠ none) (h : ¬ (s.pend = some r ∧ s.move = .timerElapsed)) :
    timedWait r e s = s := by
  rcases timedWait_cases r e s with ⟨hn, -⟩ | ⟨hr, hm, -⟩ | ⟨-, -, hs⟩
  · exact absurd hn hp
  · exact absurd ⟨hr, hm⟩ h
  · exact hs

theorem timedWait_ends (e : Event) (hp : s.pend = some r) (hm : s.move = .timerElapsed) :
    timedWait r e s = record e (advance { s with pend := none }) := by
  simp [timedWait, hp, hm]

theorem exchangeOctet_issues (hop : microOpAt s.seq = some (.xfer tx dst)) (hp : s.pend = none) :
    exchangeOctet tx s = .next (issue (.xfer tx) s) := by
  simp only [exchangeOctet, exchangeDst_eq_some.2 hop, hp]

theorem exchangeOctet_stays (hop : microOpAt s.seq = some (.xfer tx dst)) (hp : s.pend ≠ none)
    (h : ¬ (s.pend = some (.xfer tx) ∧ ∃ rx, s.move = .busAnswer rx)) : exchangeOctet tx s = .next s := by
  rcases exchangeOctet_cases tx dst s hop with ⟨hn, -⟩ | ⟨rx, hr, hm, -⟩ | ⟨-, -, hs⟩
  · exact absurd hn hp
  · exact absurd ⟨hr, rx, hm⟩ h
  · exact hs

theorem exchangeOctet_takes {rx : Octet} (hop : microOpAt s.seq = some (.xfer tx dst)) (hp : s.pend = some (.xfer tx))
    (hm : s.move = .busAnswer rx) : exchangeOctet tx s = .next (takeOctet tx dst rx s) := by
  simp [exchangeOctet, exchangeDst_eq_some.2 hop, hp, hm]

/-! ### The micro-operations that make a request -/

theorem runMicroOp_issues (hop : microOpAt s.seq = some op) (hr : requestOf op = some r) (hp : s.pend = none) :
    runMicroOp op s = .next (issue r s) := by
  cases op with
  | wus n | wms n => cases hr; exact congrArg _ (timedWait_issues _ hp)
  | xfer tx dst => cases hr; exact (runMicroOp_xfer tx dst s hop).trans (exchangeOctet_issues hop hp)
  | csa | csr | finr | fin => cases hr

theorem runMicroOp_stays (hop : microOpAt s.seq = some op) (hr : requestOf op = some r) (hp : s.pend ≠ none)
    (h : ¬ (s.pend = some r ∧ answers r s.move = true)) : runMicroOp op s = .next s := by
  cases op with
  | wus n | wms n =>
    cases hr
    exact congrArg _ (timedWait_stays _ hp fun ⟨hq, hm⟩ => h ⟨hq, by rw [hm]; rfl⟩)
  | xfer tx dst =>
    cases hr
    exact (runMicroOp_xfer tx dst s hop).trans
      (exchangeOctet_stays hop hp fun ⟨hq, rx, hm⟩ => h ⟨hq, by rw [hm]; rfl⟩)
  | csa | csr | finr | fin => cases hr

theorem runMicroOp_wait_ends {e : Event} {n : Nat}
    (hw : (op, r, e) ∈ ([(.wus n, .wus n, .waitUs n), (.wms n, .wms n, .waitMs n)] : List (MicroOp × Request × Event)))
    (hp : s.pend = some r) (hm : s.move = .timerElapsed) :
    runMicroOp op s = .next (record e (advance { s with pend := none })) := by
  rcases wait_cases hw with ⟨rfl, rfl, rfl⟩ | ⟨rfl, rfl, rfl⟩ <;> exact congrArg _ (timedWait_ends _ hp hm)

/-! ### The command port -/

theorem decodeCommand_setResolution (arg : BitVec 8) :
    decodeCommand (commandWord opSetResolution arg) = .ok (.setResolution arg.toNat) := by
  simp [decodeCommand, opReadPosition, opSetZero, opResetDevice, opSetResolution]

theorem presentCommand_starts {cmd : Word} {p : Prog} (hb : s.busy = false)
    (hc : (cmd, p) ∈ ([(0x0100, .read), (0x0200, .zero), (0x0300, .rstd)] : List (Word × Prog))) :
    presentCommand cmd s = .next (startProgram p (beginCommand cmd s)) := by
  rcases busCommand_cases hc with ⟨rfl, rfl⟩ | ⟨rfl, rfl⟩ | ⟨rfl, rfl⟩
  · exact (presentCommand_legal (i := .readPosition) hb rfl).trans (onCommand_idle _ _ hb)
  · exact (presentCommand_legal (i := .setZero) hb rfl).trans (onCommand_idle _ _ hb)
  · exact (presentCommand_legal (i := .resetDevice) hb rfl).trans (onCommand_idle _ _ hb)

/-- The number of bits that SET_RESOLUTION is given decides what it writes (R170, R171). -/
theorem configure_eq_completeWith {arg : BitVec 8} {code : BitVec 2} {cf : BitVec 8} (s : State)
    (hc : (arg = 12 ∧ code = errOk ∧ cf = setRes14 false s.config) ∨ (arg = 14 ∧ code = errOk ∧ cf = setRes14 true s.config) ∨
        (arg ≠ 12 ∧ arg ≠ 14 ∧ code = errCfg ∧ cf = s.config)) :
    configure arg.toNat s = completeWith code { s with config := cf } := by
  rcases hc with ⟨rfl, rfl, rfl⟩ | ⟨rfl, rfl, rfl⟩ | ⟨h12, h14, rfl, rfl⟩
  · rfl
  · rfl
  · rcases configure_cases arg.toNat s with ⟨h, -⟩ | ⟨h, -⟩ | ⟨-, -, h⟩
    · exact absurd (BitVec.eq_of_toNat_eq h) h12
    · exact absurd (BitVec.eq_of_toNat_eq h) h14
    · exact h

theorem presentCommand_setResolution (arg : BitVec 8) (hb : s.busy = false) :
    presentCommand (commandWord opSetResolution arg) s =
      .next (configure arg.toNat (beginCommand (commandWord opSetResolution arg) s)) := by
  have hword : BitVec.ofNat 8 arg.toNat = arg := by simp
  rw [presentCommand_legal hb (decodeCommand_setResolution arg), exec, execSetResolution, onCommand_idle _ _ hb, hword]

/-! ### Every reaction is the answer -/

/-- The converse of `react_cases`: the guards of a reaction decide it. -/
theorem Reaction.react_eq (h : Reaction s u) : react s = .next u := by
  cases h with
  | reset hm => simp only [react, hm]
  | drop cmd hm hb => exact (react_present hm).trans (presentCommand_busy cmd hb)
  | start cmd p hm hb hc => exact (react_present hm).trans (presentCommand_starts hb hc)
  | configure arg code cf hm hb hc =>
    rw [react_present hm, presentCommand_setResolution arg hb, configure_eq_completeWith (beginCommand _ s) hc]
  | illegal cmd why hm hb hd => exact (react_present hm).trans (presentCommand_illegal hb hd)
  | readout n v hm hv => simp only [react, hm, readRegister, hv]
  | idle hp hm => exact (react_hostSilent hm).trans (sequencerTurn_idle hp)
  | line a hop hm => rw [react_running hop hm]; cases a <;> rfl
  | issue op r hop hr hp hm => exact (react_running hop hm).trans (runMicroOp_issues hop hr hp)
  | stay op r hop hr hp hm hn => exact (react_running hop hm).trans (runMicroOp_stays hop hr hp hn)
  | elapsed op r e n hop hw hp hm =>
    exact (react_running hop (hostSilent_of_timerElapsed hm)).trans (runMicroOp_wait_ends hw hp hm)
  | octet tx dst rx hop hp hm =>
    rw [react_running hop (hostSilent_of_busAnswer hm), runMicroOp_xfer tx dst s hop, exchangeOctet_takes hop hp hm]
  | finr hop hm => exact react_running hop hm
  | fin hop hm => exact react_running hop hm

theorem Reaction.step_eq (h : Reaction s u) : step s = .next (endMove u) :=
  step_eq_next.2 ⟨u, h.react_eq, rfl⟩

/-! ### Single steps, each named by its reaction -/

/-- Settles O23: the step is the timed wait of R104, in its three phases. -/
theorem waitsIssueStayAndEnd : Obligations.WaitsIssueStayAndEnd := by
  unfold Obligations.WaitsIssueStayAndEnd
  intro s op r e n hop hw hm
  have hstep : step s = .next (endMove (timedWait r e s)) := (wait_reaction hop hm hw).step_eq
  refine ⟨fun hp => ?_, fun hp hn => ?_, fun hp ht => ?_⟩
  · rw [hstep, timedWait_issues e hp]
    rfl
  · rw [hstep, timedWait_stays e (by simp [hp]) (fun h => hn h.2)]
    rfl
  · rw [hstep, timedWait_ends e hp ht]
    rfl

/-- Settles O17: each wire octet is the exchange of its row, in its issue phase. -/
theorem wireOctetsIssueTheirRequest : Obligations.WireOctetsIssueTheirRequest := by
  unfold Obligations.WireOctetsIssueTheirRequest
  intro s i tx dst hrow hop hp
  have hissue := exchangeOctet_issues hop hp
  simp only [List.mem_cons, List.not_mem_nil, or_false, Prod.mk.injEq] at hrow
  rcases hrow with ⟨rfl, rfl⟩ | ⟨rfl, rfl⟩ | ⟨rfl, rfl⟩ <;> exact hissue

/-- Settles O37: the readout of an existing register is a reaction of the block. -/
theorem readoutGivesTheRegister : Obligations.ReadoutGivesTheRegister := by
  unfold Obligations.ReadoutGivesTheRegister
  intro s n v hm hrow
  have hv : readoutOf n s = some v := by
    simp only [List.mem_cons, List.not_mem_nil, or_false, Prod.mk.injEq] at hrow
    rcases hrow with ⟨rfl, rfl⟩ | ⟨rfl, rfl⟩ | ⟨rfl, rfl⟩ <;> rfl
  exact (Reaction.readout n v hm hv).step_eq

end Sys2Proof.Machine

/-! SUPPORT. The invariant, split by the fields it speaks of: STATUS and PROG, the position, RESULT, ACC. Each part has a lemma for
each operation that writes its fields; a reaction keeps the invariant by one lemma from each part. -/

namespace Sys2Proof.Machine

variable {s u : State} {q : Seq} {p : Prog} {op : MicroOp} {r : Request} {pend : Option Request} {cs : Bool}
  {v : BitVec 8} {acc : Option Word} {tx : Octet} {dst : Dst}

/-! ### The program positions that the invariant turns on -/

/-- The stretch of READ after its first exchange, where ACC holds an octet of this very read (R121). -/
abbrev Seq.HoldsOctet (q : Seq) : Prop := q.prog = .read ∧ 3 ≤ q.idx

/-- FINR stands at the end of READ only (R82 to R84). -/
theorem eq_of_microOpAt_finr (h : microOpAt q = some .finr) : q = ⟨.read, 11⟩ := by
  have key : ∀ q : Seq, microOpAt q = some .finr → q = ⟨.read, 11⟩ := by
    refine forall_seq ?_ ?_ ?_ ?_ <;> decide
  exact key q h

/-- The line is inactive where a program ends (R107). -/
theorem lineAt_of_last (hop : microOpAt q = some op) (h : op = .fin ∨ op = .finr) : lineAt q = false := by
  have key : ∀ q : Seq, microOpAt q = some .fin ∨ microOpAt q = some .finr → lineAt q = false := by
    refine forall_seq ?_ ?_ ?_ ?_ <;> decide
  exact key q (by simpa [hop] using h)

/-- The exchanges of READ are its HI and its LO, and the other programs keep no octet (R82 to R84). -/
theorem exchange_cases (hop : microOpAt q = some (.xfer tx dst)) :
    (q = ⟨.read, 2⟩ ∧ dst = .hi) ∨ (q = ⟨.read, 8⟩ ∧ dst = .lo) ∨ (q.prog ≠ .read ∧ dst = .none) := by
  have key : ∀ q : Seq, (microOpAt q).all (fun op => match op with
      | .xfer _ d => decide ((q = ⟨.read, 2⟩ ∧ d = .hi) ∨ (q = ⟨.read, 8⟩ ∧ d = .lo) ∨ (q.prog ≠ .read ∧ d = .none))
      | _ => true) = true := by
    refine forall_seq ?_ ?_ ?_ ?_ <;> decide
  simpa [hop] using key q

/-- READ comes to hold an octet only from its first exchange. -/
theorem holdsOctet_succ (h : Seq.HoldsOctet ⟨q.prog, q.idx + 1⟩) : q.HoldsOctet ∨ q = ⟨.read, 2⟩ := by
  have key : ∀ i : BitVec 4, 3 ≤ i + 1 → 3 ≤ i ∨ i = 2 := by decide
  obtain ⟨prog, idx⟩ := q
  obtain ⟨hp, hi⟩ := h
  cases hp
  exact (key idx hi).imp (fun hk => ⟨rfl, hk⟩) (fun hk => by rw [hk])

/-- A micro-operation that is no exchange leaves ACC as fresh as it was. -/
theorem holdsOctet_of_succ (hop : microOpAt q = some op) (hx : ∀ tx dst, op ≠ .xfer tx dst)
    (h : Seq.HoldsOctet ⟨q.prog, q.idx + 1⟩) : q.HoldsOctet := by
  rcases holdsOctet_succ h with hq | rfl
  · exact hq
  · exact absurd (Option.some.inj hop).symm (hx octetNop .hi)

/-! ### STATUS and PROG -/

/-- What the invariant says of STATUS while PROG is `p` (R24, R29 to R31). -/
structure StatusOk (v : BitVec 8) (p : Prog) : Prop where
  busy_iff : statusBusy v = true ↔ p ≠ .none
  reserved : statusReserved v = 0
  err_code : statusErr v ≠ 3
  busy_status : statusBusy v = true → statusDone v = false ∧ statusErr v = errOk

theorem statusOk_reset : StatusOk 0x00 .none := ⟨by decide, by decide, by decide, by decide⟩

theorem StatusOk.setPfault (h : StatusOk v p) : StatusOk (setPfault v) p :=
  ⟨by simpa using h.busy_iff, by simpa using h.reserved, by simpa using h.err_code, by simpa using h.busy_status⟩

theorem StatusOk.prog_eq_none (h : StatusOk v p) (hb : statusBusy v = false) : p = .none := by
  have hbusy := h.busy_iff
  simpa [hb] using hbusy

/-- Acceptance of a bus command (R29 to R31). -/
theorem StatusOk.start (h : StatusOk v .none) (hp : p ≠ .none) :
    StatusOk (setBusy true (setErr errOk (setDone false v))) p :=
  ⟨by simpa using hp, by simpa using h.reserved, by simp [errOk], by simp⟩

/-- A command that completes in its acceptance step (R30, R31). -/
theorem StatusOk.complete (h : StatusOk v .none) {code : BitVec 2} (hc : code ≠ 3) :
    StatusOk (setDone true (setErr code (setErr errOk (setDone false v)))) .none :=
  have hidle : statusBusy v = false := by simpa using h.busy_iff
  ⟨by simp [hidle], by simpa using h.reserved, by simpa using hc, by simp [hidle]⟩

/-- The end of a bus command (R105, R128). -/
theorem StatusOk.finish (h : StatusOk v p) : StatusOk (setErr errOk (setDone true (setBusy false v))) .none :=
  ⟨by simp, by simpa using h.reserved, by simp [errOk], by simp⟩

/-! ### The position: SEQ, PEND and the line -/

/-- What the invariant says of SEQ, PEND and CS_ACT (R27, R28, R107). -/
structure PositionOk (q : Seq) (pend : Option Request) (cs : Bool) : Prop where
  idle_idx : q.prog = .none → q.idx = 0
  in_program : q.prog ≠ .none → (microOpAt q).isSome = true
  pend_at : ∀ r, pend = some r → ∃ op, microOpAt q = some op ∧ requestOf op = some r
  line : cs = lineAt q

theorem PositionOk.of_pend_none (hidle : q.prog = .none → q.idx = 0) (hin : q.prog ≠ .none → (microOpAt q).isSome = true)
    (hline : cs = lineAt q) : PositionOk q none cs :=
  ⟨hidle, hin, fun _ h => (Option.some_ne_none _ h.symm).elim, hline⟩

theorem positionOk_idle : PositionOk ⟨.none, 0⟩ none false :=
  .of_pend_none (fun _ => rfl) (fun h => absurd rfl h) rfl

/-- An idle position is that of reset (R27, R28, R211). -/
theorem PositionOk.eq_idle (h : PositionOk q pend cs) (hp : q.prog = .none) : q = ⟨.none, 0⟩ ∧ pend = none ∧ cs = false := by
  obtain ⟨prog, idx⟩ := q
  cases hp
  refine ⟨congrArg _ (h.idle_idx rfl), ?_, h.line⟩
  cases hpend : pend with
  | none => rfl
  | some r =>
    obtain ⟨op, hop, -⟩ := h.pend_at r hpend
    simp at hop

/-- Every program starts with the line inactive, at a micro-operation of its own. -/
theorem positionOk_start (p : Prog) : PositionOk ⟨p, 0⟩ none false :=
  .of_pend_none (fun _ => rfl) (by cases p <;> decide) (by cases p <;> decide)

theorem PositionOk.issue (h : PositionOk q pend cs) (hop : microOpAt q = some op) (hr : requestOf op = some r) :
    PositionOk q (some r) cs :=
  ⟨h.idle_idx, h.in_program, fun _ hr' => ⟨op, hop, hr.trans hr'⟩, h.line⟩

/-- A micro-operation that makes no request has none outstanding. -/
theorem PositionOk.pend_eq_none (h : PositionOk q pend cs) (hop : microOpAt q = some op) (hr : requestOf op = none) :
    pend = none := by
  cases hpend : pend with
  | none => rfl
  | some r =>
    obtain ⟨op', hop', hr'⟩ := h.pend_at r hpend
    cases Option.some.inj (hop.symm.trans hop')
    rw [hr] at hr'
    cases hr'

/-- From every micro-operation but the last, IDX goes on inside the program, and the line as CSA and CSR say (R27, R107). -/
theorem PositionOk.succ (h : PositionOk q pend cs) (hop : microOpAt q = some op) (hf : op ≠ .fin) (hr : op ≠ .finr) :
    PositionOk ⟨q.prog, q.idx + 1⟩ none (if op = .csa then true else if op = .csr then false else cs) := by
  refine .of_pend_none (fun (hp : q.prog = .none) => absurd hp (prog_ne_none_of_microOpAt hop)) (fun _ => ?_) ?_
  · exact microOpAt_succ q (by rw [hop]; rfl) (by simpa [hop] using hf) (by simpa [hop] using hr)
  · rw [lineAt_succ q op hop hf hr, h.line]

/-- A program ends with the line inactive and nothing outstanding. -/
theorem PositionOk.finish (h : PositionOk q pend cs) (hop : microOpAt q = some op) (hlast : op = .fin ∨ op = .finr) :
    PositionOk ⟨.none, 0⟩ pend cs := by
  have hpend : pend = none := h.pend_eq_none hop (by rcases hlast with rfl | rfl <;> rfl)
  have hline : cs = false := h.line.trans (lineAt_of_last hop hlast)
  rw [hpend, hline]
  exact positionOk_idle

/-! ### RESULT -/

/-- What the invariant says of RESULT (R23). -/
def ResultOk (w : Word) : Prop := w = sentinel ∨ w.toNat ≤ 0x3FFF

theorem normWidth_le (mag : BitVec 14) (res : Resolution) : (normWidth mag res).toNat ≤ 0x3FFF := by
  cases res <;> simp only [normWidth] <;> bv_omega

/-- A position is a magnitude or the sentinel (R126, R129). -/
theorem resultOk_pos (raw : Word) (res : Resolution) : ResultOk (pos raw res) := by
  unfold pos
  split
  · exact .inr (normWidth_le _ _)
  · exact .inl rfl

/-! ### ACC -/

/-- What the invariant says of ACC at `q`: an octet of this read, and a low byte of 0 until the second one (R26, R121). -/
def AccOk (q : Seq) (acc : Option Word) : Prop :=
  q.HoldsOctet → ∃ a, acc = some a ∧ (q.idx ≤ 8 → a.setWidth 8 = (0 : BitVec 8))

theorem accOk_of_not_holdsOctet (h : ¬ q.HoldsOctet) : AccOk q acc := fun hq => absurd hq h

theorem accOk_start (p : Prog) (acc : Option Word) : AccOk ⟨p, 0⟩ acc :=
  accOk_of_not_holdsOctet fun ⟨_, hi⟩ => absurd hi (show ¬ (3 : BitVec 4) ≤ 0 by decide)

theorem AccOk.succ (h : AccOk q acc) (hop : microOpAt q = some op) (hx : ∀ tx dst, op ≠ .xfer tx dst) :
    AccOk ⟨q.prog, q.idx + 1⟩ acc := by
  intro hsucc
  have hq := holdsOctet_of_succ hop hx hsucc
  obtain ⟨a, hacc, hlow⟩ := h hq
  have hidx : ∀ i : BitVec 4, 3 ≤ i + 1 → i + 1 ≤ 8 → i ≤ 8 := by decide
  exact ⟨a, hacc, fun hi => hlow (hidx _ hsucc.2 hi)⟩

/-- HI clears the low byte, LO comes after IDX 8 and keeps the value, and NONE stands outside READ (R103, R121, R122, R152). -/
theorem AccOk.octet (h : AccOk q acc) (hop : microOpAt q = some (.xfer tx dst)) (rx : Octet) :
    AccOk ⟨q.prog, q.idx + 1⟩ (storeOctet dst rx acc) := by
  rcases exchange_cases hop with ⟨rfl, rfl⟩ | ⟨rfl, rfl⟩ | ⟨hp, rfl⟩
  · have hlow : ∀ b : Octet, (b ++ (0 : BitVec 8)).setWidth 8 = (0 : BitVec 8) := by decide
    exact fun _ => ⟨_, storeOctet_hi_eq rx acc, fun _ => hlow rx⟩
  · obtain ⟨a, rfl, -⟩ := h ⟨rfl, by decide⟩
    exact fun _ => ⟨_, rfl, fun hi => absurd hi (by decide)⟩
  · exact accOk_of_not_holdsOctet fun hq => hp hq.1

/-! ### The invariant as a whole -/

theorem inv_iff : s.Inv ↔ StatusOk s.status s.seq.prog ∧ PositionOk s.seq s.pend s.csAct ∧ configReserved s.config = 0 ∧
    ResultOk s.result ∧ AccOk s.seq s.acc := by
  constructor
  · intro h
    exact ⟨⟨h.busy_iff, h.status_reserved, h.err_code, h.busy_status⟩, ⟨h.idle_idx, h.in_program, h.pend_at, h.line⟩,
      h.config_reserved, h.result_range, fun hq => h.acc_written hq.1 hq.2⟩
  · rintro ⟨hst, hpos, hcf, hres, hacc⟩
    exact ⟨hst.busy_iff, hpos.idle_idx, hpos.in_program, hpos.pend_at, hpos.line, hst.reserved, hst.err_code,
      hst.busy_status, hcf, hres, fun hp hi => hacc ⟨hp, hi⟩⟩

/-! ### Reset -/

theorem configRes14_resetOf (r : Resolution) : configRes14 (State.resetOf r).config = true ↔ r = .bits14 := by
  cases r <;> decide

theorem configReserved_resetOf (r : Resolution) : configReserved (State.resetOf r).config = 0 := by
  cases r <;> decide

/-- The state after reset, for either INIT_RES (R35). -/
theorem inv_resetOf (r : Resolution) : (State.resetOf r).Inv :=
  inv_iff.2 ⟨statusOk_reset, positionOk_idle, configReserved_resetOf r, .inl rfl, accOk_start .none none⟩

/-- Block reset gives the invariant whatever held before; what goes on across it is no part of the invariant (R210). -/
theorem inv_blockReset (s : State) : (blockReset s).Inv := by
  have h := inv_iff.1 (inv_resetOf s.initRes)
  exact inv_iff.2 h

/-! ### Every reaction keeps the invariant -/

/-- What a block that is not busy holds of its position, and of STATUS at it (R27 to R29, R211). -/
theorem State.Inv.idle_of_not_busy (h : s.Inv) (hb : s.busy = false) :
    StatusOk s.status .none ∧ s.seq = ⟨.none, 0⟩ ∧ s.pend = none ∧ s.csAct = false := by
  obtain ⟨hst, hpos, -⟩ := inv_iff.1 h
  have hp := hst.prog_eq_none hb
  exact ⟨hp ▸ hst, hpos.eq_idle hp⟩

/-- A bus command starts its program from an idle block (R29 to R31, R120, R150, R151). -/
theorem State.Inv.startProgram (h : s.Inv) (hb : s.busy = false) (cmd : Word) (hp : p ≠ .none) :
    (startProgram p (beginCommand cmd s)).Inv := by
  obtain ⟨hst, -, hpend, hcs⟩ := h.idle_of_not_busy hb
  obtain ⟨-, -, hcf, hres, -⟩ := inv_iff.1 h
  refine inv_iff.2 ⟨hst.start hp, ?_, hcf, hres, accOk_start p _⟩
  simpa [hpend, hcs] using positionOk_start p

/-- A command that completes at once leaves an idle block idle (R30, R31, R170, R184). -/
theorem State.Inv.completeWith (h : s.Inv) (hb : s.busy = false) (cmd : Word) {code : BitVec 2} (hc : code ≠ 3)
    {cf : BitVec 8} (hcf : configReserved cf = 0) :
    (completeWith code { beginCommand cmd s with config := cf }).Inv := by
  obtain ⟨hst, hseq, -, -⟩ := h.idle_of_not_busy hb
  obtain ⟨-, hpos, -, hres, hacc⟩ := inv_iff.1 h
  refine inv_iff.2 ⟨?_, hpos, hcf, hres, hacc⟩
  have hprog : s.seq.prog = .none := congrArg Seq.prog hseq
  exact hprog ▸ hst.complete hc

/-- A program that ends leaves the block idle (R105, R128). -/
theorem State.Inv.finishProgram (h : s.Inv) (hop : microOpAt s.seq = some op) (hlast : op = .fin ∨ op = .finr) :
    (finishProgram s).Inv := by
  obtain ⟨hst, hpos, hcf, hres, -⟩ := inv_iff.1 h
  exact inv_iff.2 ⟨hst.finish, hpos.finish hop hlast, hcf, hres, accOk_start .none _⟩

/-- RESULT written from whatever frame is in range (R129). -/
theorem State.Inv.writePosition (h : s.Inv) : (writePosition s).Inv := by
  obtain ⟨hst, hpos, hcf, -, hacc⟩ := inv_iff.1 h
  exact inv_iff.2 ⟨hst, hpos, hcf, resultOk_pos _ _, hacc⟩

theorem State.Inv.endMove (h : s.Inv) : (endMove s).Inv := inv_withSchedule h _

theorem Reaction.keeps_inv (hu : Reaction s u) (h : s.Inv) : u.Inv := by
  obtain ⟨hst, hpos, hcf, hres, hacc⟩ := inv_iff.1 h
  cases hu with
  | reset => exact inv_blockReset s
  | drop => exact inv_iff.2 ⟨hst.setPfault, hpos, hcf, hres, hacc⟩
  | start cmd p hm hb hc =>
    refine h.startProgram hb cmd ?_
    rcases busCommand_cases hc with ⟨-, rfl⟩ | ⟨-, rfl⟩ | ⟨-, rfl⟩ <;> decide
  | configure arg code cf hm hb hc =>
    refine h.completeWith hb _ ?_ ?_
    · rcases hc with ⟨-, rfl, -⟩ | ⟨-, rfl, -⟩ | ⟨-, -, rfl, -⟩ <;> decide
    · rcases hc with ⟨-, -, rfl⟩ | ⟨-, -, rfl⟩ | ⟨-, -, -, rfl⟩ <;> simpa using hcf
  | illegal cmd why hm hb => exact h.completeWith hb cmd (by decide) hcf
  | readout => exact inv_iff.2 ⟨hst, hpos, hcf, hres, hacc⟩
  | idle => exact h
  | stay => exact h
  | line a hop =>
    have hpend := hpos.pend_eq_none hop (by cases a <;> rfl)
    have hnext := hpos.succ hop (by cases a <;> simp) (by cases a <;> simp)
    refine inv_iff.2 ⟨hst, ?_, hcf, hres, hacc.succ hop (by cases a <;> simp)⟩
    cases a <;> simpa [hpend] using hnext
  | issue op r hop hr => exact inv_iff.2 ⟨hst, hpos.issue hop hr, hcf, hres, hacc⟩
  | elapsed op r e n hop hw =>
    rcases wait_cases hw with ⟨rfl, -⟩ | ⟨rfl, -⟩ <;>
      exact inv_iff.2 ⟨hst, hpos.succ hop (by simp) (by simp), hcf, hres, hacc.succ hop (by simp)⟩
  | octet tx dst rx hop =>
    exact inv_iff.2 ⟨hst, hpos.succ hop (by simp) (by simp), hcf, hres, hacc.octet hop rx⟩
  | finr hop => exact h.writePosition.finishProgram hop (.inr rfl)
  | fin hop => exact h.finishProgram hop (.inl rfl)

/-- Settles O40: every reaction keeps the invariant, and the schedule is no part of it. -/
theorem stepKeepsTheInvariant : Obligations.StepKeepsTheInvariant := by
  unfold Obligations.StepKeepsTheInvariant
  intro s t h hstep
  obtain ⟨u, hu, rfl⟩ := step_cases hstep
  exact (hu.keeps_inv h).endMove

/-- Settles O39: `inv_resetOf` for the open INIT_RES, and the empty trace leaves the line inactive. -/
theorem invariantAtReset : Obligations.InvariantAtReset := ⟨inv_resetOf Config.initRes, rfl⟩

/-- Settles O1: CONFIG for either INIT_RES, the other fields as written. -/
theorem resetHoldsTheSpecValues : Obligations.ResetHoldsTheSpecValues :=
  ⟨configRes14_resetOf Config.initRes, configReserved_resetOf Config.initRes, rfl, rfl, rfl, rfl, rfl, rfl, rfl⟩

end Sys2Proof.Machine

/-! SUPPORT. What writes each register and flag, from the list of reactions (R21, R23, R29, R32, R196); and that a
stale ACC reaches nothing (R26, R59, R121). -/

namespace Sys2Proof.Machine

variable {s t u : State}

/-! ### PFAULT, RESULT, CONFIG and BUSY -/

/-- Only a dropped command writes PFAULT, block reset aside (R32). -/
theorem Reaction.pfault_iff (hu : Reaction s u) (hm : s.move ≠ .blockReset) :
    u.pfault = true ↔ s.pfault = true ∨ (s.busy = true ∧ ∃ cmd, s.move = .present cmd) := by
  have hquiet : (∀ cmd, s.move ≠ .present cmd) →
      (s.pfault = true ↔ s.pfault = true ∨ (s.busy = true ∧ ∃ cmd, s.move = .present cmd)) := by
    intro hn
    simp [hn]
  have hkept := fun hs : s.HostSilent => hquiet (hostSilent_move_ne_present hs)
  cases hu with
  | reset hreset => exact absurd hreset hm
  | drop cmd hp hb => simp [State.pfault, hb, hp]
  | start cmd p hp hb | configure arg code cf hp hb | illegal cmd why hp hb => simp [State.pfault, hb]
  | readout n v hr => exact hquiet (by simp [hr])
  | idle _ hs | line _ _ hs | issue _ _ _ _ _ hs | stay _ _ _ _ _ hs => exact hkept hs
  | elapsed op r e n hop hw hp ht => exact hkept (hostSilent_of_timerElapsed ht)
  | octet tx dst rx hop hp hb => exact hkept (hostSilent_of_busAnswer hb)
  | finr hop hs | fin hop hs => simpa [State.pfault] using hkept hs

/-- Settles O44: a reaction decides PFAULT, and using up the move keeps it. -/
theorem pfaultIsSticky : Obligations.PfaultIsSticky := by
  unfold Obligations.PfaultIsSticky
  intro s t h hm
  obtain ⟨u, hu, rfl⟩ := step_cases h
  exact hu.pfault_iff hm

/-- Settles O45: every reaction but block reset and FINR keeps RESULT. -/
theorem onlyFinrWritesResult : Obligations.OnlyFinrWritesResult := by
  unfold Obligations.OnlyFinrWritesResult
  intro s t h hne
  obtain ⟨u, hu, rfl⟩ := step_cases h
  cases hu with
  | reset hm => exact .inl hm
  | finr hop => exact .inr hop
  | _ => exact absurd rfl hne

/-- Settles O46: every reaction but block reset and a legal SET_RESOLUTION keeps CONFIG. -/
theorem onlySetResolutionWritesConfig : Obligations.OnlySetResolutionWritesConfig := by
  unfold Obligations.OnlySetResolutionWritesConfig
  intro s t h hne
  obtain ⟨u, hu, rfl⟩ := step_cases h
  cases hu with
  | reset hm => exact .inl hm
  | configure arg code cf hm hb hc =>
    rcases hc with ⟨rfl, -⟩ | ⟨rfl, -⟩ | ⟨-, -, -, rfl⟩
    · exact .inr ⟨hb, .inl hm⟩
    · exact .inr ⟨hb, .inr hm⟩
    · exact absurd rfl hne
  | _ => exact absurd rfl hne

/-- What a reaction does to BUSY: a bus command sets it, block reset, FINR and FIN clear it, all else keeps it (R29). -/
theorem Reaction.busy_cases (hu : Reaction s u) :
    (u.busy = true ∧ (s.move = .present 0x0100 ∨ s.move = .present 0x0200 ∨ s.move = .present 0x0300)) ∨
    (u.busy = false ∧ (s.move = .blockReset ∨ microOpAt s.seq = some .fin ∨ microOpAt s.seq = some .finr)) ∨
    u.busy = s.busy := by
  cases hu with
  | reset hm => exact .inr (.inl ⟨(by decide : statusBusy 0x00 = false), .inl hm⟩)
  | start cmd p hm hb hc =>
    refine .inl ⟨by simp [State.busy], ?_⟩
    rcases busCommand_cases hc with ⟨rfl, -⟩ | ⟨rfl, -⟩ | ⟨rfl, -⟩ <;> simp [hm]
  | fin hop => exact .inr (.inl ⟨by simp [State.busy], .inr (.inl hop)⟩)
  | finr hop => exact .inr (.inl ⟨by simp [State.busy], .inr (.inr hop)⟩)
  | drop | configure | illegal => exact .inr (.inr (by simp [State.busy]))
  | readout | idle | line | issue | stay | elapsed | octet => exact .inr (.inr rfl)

/-- Settles O47: where BUSY moves, the reaction is one that `Reaction.busy_cases` names. -/
theorem onlyBusCommandsMoveBusy : Obligations.OnlyBusCommandsMoveBusy := by
  unfold Obligations.OnlyBusCommandsMoveBusy
  intro s t h
  obtain ⟨u, hu, rfl⟩ := step_cases h
  rcases hu.busy_cases with ⟨hset, hcmd⟩ | ⟨hclear, hend⟩ | hkept
  · exact ⟨fun _ _ => hcmd, fun _ ht => absurd (hset.symm.trans ht) (by decide)⟩
  · exact ⟨fun _ ht => absurd (hclear.symm.trans ht) (by decide), fun _ _ => hend⟩
  · exact ⟨fun hs ht => absurd (hs.symm.trans (hkept.symm.trans ht)) (by decide),
      fun hs ht => absurd (hs.symm.trans (hkept.symm.trans ht)) (by decide)⟩

/-! ### ACC without a value -/

/-- Where FINR stands, ACC holds a value (R26). -/
theorem State.Inv.acc_isNone_at_finr (h : s.Inv) (hop : microOpAt s.seq = some .finr) : s.acc.isNone = false := by
  have hseq := eq_of_microOpAt_finr hop
  obtain ⟨a, hacc, -⟩ := h.acc_written (by rw [hseq]) (by rw [hseq]; decide)
  rw [hacc]
  rfl

/-- Settles O56: FINR alone draws a free frame, and over no ACC that the invariant allows; block reset alone clears the fault. -/
theorem noLegalRunReadsAnUnwrittenAcc : Obligations.NoLegalRunReadsAnUnwrittenAcc := by
  unfold Obligations.NoLegalRunReadsAnUnwrittenAcc
  constructor
  · intro s t h hstep
    obtain ⟨u, hu, rfl⟩ := step_cases hstep
    cases hu with
    | finr hop => simp [h.acc_isNone_at_finr hop]
    | reset => exact ⟨rfl, fun hf => by cases hf⟩
    | _ => exact ⟨rfl, id⟩
  · intro s t hstep hf hm
    obtain ⟨u, hu, rfl⟩ := step_cases hstep
    cases hu with
    | reset hreset => exact absurd hreset hm
    | finr => simp [hf]
    | _ => exact hf

/-! ### A stale ACC -/

/-- The same block with something else in ACC. -/
def State.withAcc (s : State) (a : Option Word) : State := { s with acc := a }

/-- Where ACC holds no octet of a running READ, the block reacts alike whatever ACC holds, and if the reaction leaves one there, it
is the same one: the only way in is the HI exchange, which takes nothing from the old ACC (R121). -/
theorem Reaction.withAcc (hu : Reaction s u) (hs : ¬ s.seq.HoldsOctet) (a : Option Word) :
    ∃ a', Reaction (s.withAcc a) (u.withAcc a') ∧ (u.seq.HoldsOctet → a' = u.acc) := by
  have hstart (p : Prog) : ¬ Seq.HoldsOctet ⟨p, 0⟩ := fun ⟨_, hi⟩ => absurd hi (show ¬ (3 : BitVec 4) ≤ 0 by decide)
  cases hu with
  | reset hm => exact ⟨none, .reset hm, fun _ => rfl⟩
  | drop cmd hm hb => exact ⟨a, .drop cmd hm hb, fun h => absurd h hs⟩
  | start cmd p hm hb hc => exact ⟨a, .start cmd p hm hb hc, fun h => absurd h (hstart p)⟩
  | configure arg code cf hm hb hc => exact ⟨a, .configure arg code cf hm hb hc, fun h => absurd h hs⟩
  | illegal cmd why hm hb hd => exact ⟨a, .illegal cmd why hm hb hd, fun h => absurd h hs⟩
  | readout n v hm hv => exact ⟨a, .readout n v hm hv, fun h => absurd h hs⟩
  | idle hp hm => exact ⟨a, .idle hp hm, fun h => absurd h hs⟩
  | line b hop hm => exact ⟨a, .line b hop hm, fun h => absurd (holdsOctet_of_succ hop (by cases b <;> simp) h) hs⟩
  | issue op r hop hr hp hm => exact ⟨a, .issue op r hop hr hp hm, fun h => absurd h hs⟩
  | stay op r hop hr hp hm hn => exact ⟨a, .stay op r hop hr hp hm hn, fun h => absurd h hs⟩
  | elapsed op r e n hop hw hp hm =>
    refine ⟨a, .elapsed op r e n hop hw hp hm, fun h => absurd (holdsOctet_of_succ hop ?_ h) hs⟩
    rcases wait_cases hw with ⟨rfl, -⟩ | ⟨rfl, -⟩ <;> simp
  | octet tx dst rx hop hp hm =>
    refine ⟨storeOctet dst rx a, .octet tx dst rx hop hp hm, fun h => ?_⟩
    have hseq := (holdsOctet_succ h).resolve_left hs
    rcases exchange_cases hop with ⟨-, rfl⟩ | ⟨hlo, -⟩ | ⟨hprog, -⟩
    · rfl
    · rw [hseq] at hlo
      cases hlo
    · rw [hseq] at hprog
      exact absurd rfl hprog
  | finr hop hm =>
    rw [eq_of_microOpAt_finr hop] at hs
    exact absurd ⟨rfl, by decide⟩ hs
  | fin hop hm => exact ⟨a, .fin hop hm, fun h => absurd h (hstart .none)⟩

theorem step_withAcc (h : step s = .next t) {a : Option Word} (ha : s.seq.HoldsOctet → a = s.acc) :
    ∃ a', step (s.withAcc a) = .next (t.withAcc a') ∧ (t.seq.HoldsOctet → a' = t.acc) := by
  by_cases hs : s.seq.HoldsOctet
  · cases ha hs
    exact ⟨t.acc, h, fun _ => rfl⟩
  · obtain ⟨u, hu, rfl⟩ := step_cases h
    obtain ⟨a', hu', hsame⟩ := hu.withAcc hs a
    exact ⟨a', hu'.step_eq, hsame⟩

theorem run_withAcc (n : Nat) {s t : State} {a : Option Word} (ha : s.seq.HoldsOctet → a = s.acc)
    (h : Sys2Proof.core.run n s = .next t) :
    ∃ a', Sys2Proof.core.run n (s.withAcc a) = .next (t.withAcc a') ∧ (t.seq.HoldsOctet → a' = t.acc) := by
  induction n generalizing s a with
  | zero =>
    cases (run_zero s).symm.trans h
    exact ⟨a, run_zero _, ha⟩
  | succ n ih =>
    obtain ⟨u, hstep, hrun⟩ := step_of_run h
    obtain ⟨b, hstep', hb⟩ := step_withAcc hstep ha
    obtain ⟨a', hrun', ha'⟩ := ih hb hrun
    exact ⟨a', (run_of_step hstep').trans hrun', ha'⟩

/-- Settles O55, by induction on the run: outside the stretch the two ACCs may differ, and inside they are equal. -/
theorem staleAccReachesNothing : Obligations.StaleAccReachesNothing := by
  unfold Obligations.StaleAccReachesNothing
  intro s a n t hs h
  exact run_withAcc n (fun hq => absurd hq hs) h

end Sys2Proof.Machine

/-! SUPPORT. What a step shows the host: the observation only grows (R60, R109), a running command shows nothing of itself
(R34, R57, R61), and the answers of the command port and of the register readout (R56, R64). -/

namespace Sys2Proof.Machine

variable {s u : State}

/-! ### The observation -/

/-- A command that completes in its acceptance step records two events, its `accept` and its `done` (R109); every other
reaction records at most one. -/
theorem Reaction.trace_grows (hu : Reaction s u) : ∃ es, u.trace = s.trace ++ es ∧ es.length ≤ 2 := by
  cases hu with
  | configure | illegal => exact ⟨[_, _], List.append_assoc .., le_rfl⟩
  | reset | drop | start | line | elapsed | octet | finr | fin => exact ⟨[_], rfl, Nat.le_succ 1⟩
  | readout | idle | issue | stay => exact ⟨[], (List.append_nil _).symm, Nat.zero_le 2⟩

/-- Only a register readout adds to the readouts. -/
theorem Reaction.readouts_grow (hu : Reaction s u) : ∃ vs, u.readouts = s.readouts ++ vs ∧ vs.length ≤ 1 := by
  cases hu with
  | readout n v => exact ⟨[v], rfl, le_rfl⟩
  | _ => exact ⟨[], (List.append_nil _).symm, Nat.zero_le 1⟩

/-- Settles O43: a reaction appends to both lists, and using up the move keeps them. -/
theorem observationOnlyGrows : Obligations.ObservationOnlyGrows := by
  unfold Obligations.ObservationOnlyGrows
  intro s t h
  obtain ⟨u, hu, rfl⟩ := step_cases h
  exact ⟨hu.trace_grows, hu.readouts_grow⟩

/-! ### A running command -/

/-- A reaction under which a bus command runs on is neither an acceptance, which needs BUSY = 0, nor an end, which leaves
BUSY = 0; the others write no register but STATUS, and of it only PFAULT. -/
theorem Reaction.keeps_shown_of_busy (hu : Reaction s u) (hs : s.busy = true) (ht : u.busy = true) :
    u.result = s.result ∧ u.config = s.config ∧ u.done = s.done ∧ u.err = s.err := by
  cases hu with
  | start _ _ _ hb | configure _ _ _ _ hb | illegal _ _ _ hb => exact absurd (hs.symm.trans hb) (by decide)
  | reset => exact absurd ht (by decide : statusBusy 0x00 ≠ true)
  | finr | fin => exact absurd ht (by simp [State.busy])
  | drop => exact ⟨rfl, rfl, statusDone_setPfault _, statusErr_setPfault _⟩
  | readout | idle | line | issue | stay | elapsed | octet => exact ⟨rfl, rfl, rfl, rfl⟩

/-- Settles O48: the reaction keeps what shows, and using up the move writes no register. -/
theorem nothingShowsBeforeCompletion : Obligations.NothingShowsBeforeCompletion := by
  unfold Obligations.NothingShowsBeforeCompletion
  intro s t h hs ht
  obtain ⟨u, hu, rfl⟩ := step_cases h
  exact hu.keeps_shown_of_busy hs ht

/-! ### The command port and the register readout -/

/-- Settles O8: the move leads to the command port, and its word is decoded because BUSY = 0. -/
theorem stepRunsThePresentedCommand : Obligations.StepRunsThePresentedCommand := by
  unfold Obligations.StepRunsThePresentedCommand
  intro s cmd i hb hm hd
  have hreact : react s = exec i s := (react_present hm).trans (presentCommand_legal hb hd)
  exact congrArg thenEndMove hreact

/-- Numbers 3 and up name no register (R64). -/
theorem readoutOf_eq_none {n : Nat} (hn : 3 ≤ n) (s : State) : readoutOf n s = none := by
  obtain ⟨k, rfl⟩ := Nat.exists_eq_add_of_le' hn
  rfl

theorem readRegister_unknown {n : Nat} (hn : 3 ≤ n) (s : State) : readRegister n s = .refused (.noSuchRegister n) := by
  simp only [readRegister, readoutOf_eq_none hn s]

theorem react_readRegister {n : Nat} (h : s.move = .readRegister n) : react s = readRegister n s := by
  simp only [react, h]

/-- Settles O38: the move leads to the register readout, which finds no register of that number. -/
theorem unknownRegisterIsRefused : Obligations.UnknownRegisterIsRefused := by
  unfold Obligations.UnknownRegisterIsRefused
  intro s n hm hn
  have hreact : react s = .refused (.noSuchRegister n) := (react_readRegister hm).trans (readRegister_unknown hn s)
  exact congrArg thenEndMove hreact

end Sys2Proof.Machine

/-! SUPPORT. Decoding and encoding are inverse to each other (R71 to R76, R80). -/

namespace Sys2Proof

/-- SET_RESOLUTION alone has an operand to check (R72). -/
theorem wellFormed_setResolution (bits : Nat) : (Instr.setResolution bits).WellFormed ↔ bits < 256 := decide_eq_true_iff

/-- A case for each row of the table; SET_RESOLUTION's operand survives the 8 bits of ARG because it is below 256. -/
theorem decode_encode {i : Instr} (hi : i.WellFormed) : decode (encode i) = .ok i := by
  cases i with
  | setResolution bits =>
    have hbits : (BitVec.ofNat 8 bits).toNat = bits := Nat.mod_eq_of_lt ((wellFormed_setResolution bits).1 hi)
    have hword := Machine.decodeCommand_setResolution (BitVec.ofNat 8 bits)
    rwa [hbits] at hword
  | readPosition | setZero | resetDevice | wireNop | wireReset | wireZero => rfl

/-- Settles O6: `decode_encode`, for every instruction. -/
theorem decodeOfEncode : Obligations.DecodeOfEncode := fun _ => decode_encode

/-- Settles O7: each answer of the two decoders names its own code. -/
theorem encodeOfDecode : Obligations.EncodeOfDecode := by
  unfold Obligations.EncodeOfDecode
  intro c i h
  cases c with
  | command cmd =>
    rcases decodeCommand_ok_cases h with ⟨rfl, hc⟩ | ⟨rfl, hc⟩ | ⟨rfl, hc⟩ | ⟨rfl, hc⟩
    · exact ⟨rfl, congrArg Code.command hc.symm⟩
    · exact ⟨rfl, congrArg Code.command hc.symm⟩
    · exact ⟨rfl, congrArg Code.command hc.symm⟩
    · have harg : BitVec.ofNat 8 (argField cmd).toNat = argField cmd := by simp
      refine ⟨(wellFormed_setResolution _).2 (argField cmd).isLt, congrArg Code.command ?_⟩
      rw [harg, ← hc]
  | octet b =>
    rcases decodeOctet_ok_cases h with ⟨rfl, rfl⟩ | ⟨rfl, rfl⟩ | ⟨rfl, rfl⟩ <;> exact ⟨rfl, rfl⟩

/-- A word is known by its two fields (R70). -/
theorem eq_commandWord {cmd : Word} {op arg : BitVec 8} (hop : opField cmd = op) (harg : argField cmd = arg) :
    cmd = commandWord op arg := by
  rw [← hop, ← harg, commandWord_fields]

/-- Only the words that R71 and R72 list decode (R73). -/
theorem fields_of_decodeCommand_ok {cmd : Word} {i : Instr} (h : decodeCommand cmd = .ok i) :
    ((opField cmd = opReadPosition ∨ opField cmd = opSetZero ∨ opField cmd = opResetDevice) ∧ argField cmd = 0) ∨
    opField cmd = opSetResolution := by
  rcases decodeCommand_ok_cases h with ⟨-, hc⟩ | ⟨-, hc⟩ | ⟨-, hc⟩ | ⟨-, hc⟩
  · exact .inl (by simp [hc])
  · exact .inl (by simp [hc])
  · exact .inl (by simp [hc])
  · exact .inr (by rw [hc, opField_commandWord])

/-- Settles O5: a word with the fields of a table row is the encoding of that row, which decodes back to it; any other word cannot
have decoded. -/
theorem commandWordsDecode : Obligations.CommandWordsDecode := by
  unfold Obligations.CommandWordsDecode
  intro cmd
  refine ⟨fun ⟨hop, harg⟩ => ?_, fun ⟨hop, harg⟩ => ?_, fun ⟨hop, harg⟩ => ?_, fun hop => ?_, fun hset hbus => ?_⟩
  · rw [eq_commandWord (op := opReadPosition) hop harg]
    exact decode_encode (i := .readPosition) rfl
  · rw [eq_commandWord (op := opSetZero) hop harg]
    exact decode_encode (i := .setZero) rfl
  · rw [eq_commandWord (op := opResetDevice) hop harg]
    exact decode_encode (i := .resetDevice) rfl
  · have hword := Machine.decodeCommand_setResolution (argField cmd)
    rwa [← eq_commandWord (op := opSetResolution) hop rfl] at hword
  · cases hd : decodeCommand cmd with
    | error why => exact ⟨why, rfl⟩
    | ok i =>
      rcases fields_of_decodeCommand_ok hd with hrow | hrow
      · exact absurd hrow hbus
      · exact absurd hrow hset

/-- Settles O4: words and octets written out, each decoded by evaluation. -/
theorem specWordsDecode : Obligations.SpecWordsDecode :=
  ⟨rfl, rfl, rfl, rfl, rfl, rfl, rfl, rfl, rfl, rfl, rfl, rfl, rfl⟩

end Sys2Proof

/-! SUPPORT. Where the programs send an octet, and which (R80, R82 to R84). -/

namespace Sys2Proof.Machine

variable {s : State} {q : Seq} {tx : Octet} {dst : Dst}

/-- The exchanges of the three programs: position, octet, destination (R80, R82 to R84). -/
def listedExchanges : List (Seq × Octet × Dst) :=
  [(⟨.read, 2⟩, 0x00, .hi), (⟨.read, 8⟩, 0x00, .lo), (⟨.zero, 2⟩, 0x00, .none), (⟨.zero, 8⟩, 0x70, .none),
    (⟨.rstd, 2⟩, 0x00, .none), (⟨.rstd, 8⟩, 0x60, .none)]

/-- A micro-operation that may stand at `q`: an exchange only if it is listed there. -/
def MicroOp.listedAt (q : Seq) : MicroOp → Bool
  | .xfer tx dst => decide ((q, tx, dst) ∈ listedExchanges)
  | .csa | .csr | .wus _ | .wms _ | .finr | .fin => true

theorem microOpAt_listed : ∀ q : Seq, (microOpAt q).all (MicroOp.listedAt q) = true := by
  refine forall_seq ?_ ?_ ?_ ?_ <;> decide

theorem listedExchanges_stand : ∀ x ∈ listedExchanges, microOpAt x.1 = some (.xfer x.2.1 x.2.2) := by decide

/-- The list is exactly the exchanges of the programs. -/
theorem microOpAt_eq_xfer_iff : microOpAt q = some (.xfer tx dst) ↔ (q, tx, dst) ∈ listedExchanges := by
  constructor
  · intro hop
    have hlisted := microOpAt_listed q
    rw [hop] at hlisted
    exact of_decide_eq_true hlisted
  · exact listedExchanges_stand _

/-- Settles O16: membership in the list, written out. -/
theorem programsSendOnlyTheWireBytes : Obligations.ProgramsSendOnlyTheWireBytes := by
  unfold Obligations.ProgramsSendOnlyTheWireBytes
  intro q tx dst
  simp only [microOpAt_eq_xfer_iff, listedExchanges, List.mem_cons, List.not_mem_nil, or_false, Prod.mk.injEq]

/-- Away from its positions an octet is not exchanged (R80; log entry 6). -/
theorem exchangeOctet_elsewhere (h : ∀ dst, microOpAt s.seq ≠ some (.xfer tx dst)) :
    exchangeOctet tx s = .refused (.octetNotSentHere tx s.seq) := by
  have hdst : exchangeDst tx s.seq = none := by
    rw [Option.eq_none_iff_forall_ne_some]
    exact fun dst hd => h dst (exchangeDst_eq_some.1 hd)
  simp only [exchangeOctet, hdst]

/-- Settles O20: each wire octet is the exchange of its row, which is refused away from its positions. -/
theorem wireOctetsElsewhereAreRefused : Obligations.WireOctetsElsewhereAreRefused := by
  unfold Obligations.WireOctetsElsewhereAreRefused
  intro s i tx hrow h
  have hrefused := exchangeOctet_elsewhere h
  simp only [List.mem_cons, List.not_mem_nil, or_false, Prod.mk.injEq] at hrow
  rcases hrow with ⟨rfl, rfl⟩ | ⟨rfl, rfl⟩ | ⟨rfl, rfl⟩ <;> exact hrefused

end Sys2Proof.Machine

/-! SUPPORT. Runs under a schedule that begins with given moves, and that the host's register readouts may be put in anywhere
(R34, R223). -/

namespace Sys2Proof.Machine

variable {s t u : State} {m : Move} {ms moves rest : List Move} {n : Nat}

/-- The other moves may change under a reaction (log entry 1). -/
theorem Reaction.withSchedule (hu : Reaction s u) (hm : (s.withSchedule moves).move = s.move) :
    Reaction (s.withSchedule moves) (u.withSchedule moves) :=
  react_cases ((react_withSchedule hm).trans (congrArg _ hu.react_eq))

/-! ### Where a list of moves leads -/

/-- The moves `ms` take the block from `s` to `t`, with `rest` after them on the schedule; the schedules of `s` and `t` themselves
do not count. -/
def Leads (rest ms : List Move) (s t : State) : Prop :=
  Sys2Proof.core.run ms.length (s.withSchedule (ms ++ rest)) = .next (t.withSchedule rest)

theorem leads_nil : Leads rest [] s t ↔ s.withSchedule rest = t.withSchedule rest :=
  ⟨fun h => Host.Outcome.next.inj ((run_zero _).symm.trans h), fun h => (run_zero _).trans (congrArg _ h)⟩

/-- The first move is a reaction, and the others go on from it. -/
theorem leads_cons :
    Leads rest (m :: ms) s t ↔ ∃ u, Reaction (s.withSchedule (m :: (ms ++ rest))) u ∧ Leads rest ms u t := by
  have hend : ∀ u, Reaction (s.withSchedule (m :: (ms ++ rest))) u → endMove u = u.withSchedule (ms ++ rest) := by
    intro u hu
    have hsched : u.schedule = m :: (ms ++ rest) := hu.keeps_initRes_and_schedule.2
    rw [endMove, hsched]
    rfl
  constructor
  · intro h
    obtain ⟨v, hstep, hrun⟩ := step_of_run h
    obtain ⟨u, hu, rfl⟩ := step_cases hstep
    rw [hend u hu] at hrun
    exact ⟨u, hu, hrun⟩
  · rintro ⟨u, hu, hrun⟩
    have hstep := hu.step_eq
    rw [hend u hu] at hstep
    exact (run_of_step hstep).trans hrun

/-- A reaction whose outcome is said without its schedule. -/
theorem leads_reaction (hu : Reaction (s.withSchedule (m :: (ms ++ rest))) (u.withSchedule (m :: (ms ++ rest))))
    (h : Leads rest ms u t) : Leads rest (m :: ms) s t :=
  leads_cons.2 ⟨_, hu, h⟩

/-! ### Readouts put in -/

/-- The same block with another list of readouts. -/
def State.withReadouts (s : State) (vs : List Readout) : State := { s with readouts := vs }

/-- No reaction but a readout looks at the readouts or adds to them. -/
theorem Reaction.withReadouts (hu : Reaction s u) (hm : s.move.isReadout = false) (vs : List Readout) :
    Reaction (s.withReadouts vs) (u.withReadouts vs) := by
  cases hu with
  | reset hr => exact .reset hr
  | drop cmd hp hb => exact .drop cmd hp hb
  | start cmd p hp hb hc => exact .start cmd p hp hb hc
  | configure arg code cf hp hb hc => exact .configure arg code cf hp hb hc
  | illegal cmd why hp hb hd => exact .illegal cmd why hp hb hd
  | readout n v hr => rw [hr] at hm; cases hm
  | idle hp hs => exact .idle hp hs
  | line a hop hs => exact .line a hop hs
  | issue op r hop hr hp hs => exact .issue op r hop hr hp hs
  | stay op r hop hr hp hs hn => exact .stay op r hop hr hp hs hn
  | elapsed op r e n hop hw hp ht => exact .elapsed op r e n hop hw hp ht
  | octet tx dst rx hop hp hb => exact .octet tx dst rx hop hp hb
  | finr hop hs => exact .finr hop hs
  | fin hop hs => exact .fin hop hs

/-- Numbers 0 to 2 name a register (R20, R64). -/
theorem exists_readoutOf (hn : n < 3) (s : State) : ∃ v, readoutOf n s = some v := by
  match n, hn with
  | 0, _ => exact ⟨_, rfl⟩
  | 1, _ => exact ⟨_, rfl⟩
  | 2, _ => exact ⟨_, rfl⟩

/-- Where the moves without the readouts lead, the moves with them lead too, with one answer more for each readout (R34). -/
theorem leads_with_readouts (hknown : moves.all readsKnownRegisters = true) (h : Leads rest (withoutReadouts moves) s t)
    (ws : List Readout) :
    ∃ vs, Leads rest moves (s.withReadouts ws) (t.withReadouts (ws ++ vs)) ∧
      vs.length = moves.countP Move.isReadout := by
  induction moves generalizing s ws with
  | nil =>
    refine ⟨[], leads_nil.2 ?_, rfl⟩
    rw [List.append_nil]
    exact congrArg (·.withReadouts ws) (leads_nil.1 h)
  | cons m ms ih =>
    rw [List.all_cons, Bool.and_eq_true] at hknown
    obtain ⟨hm, hms⟩ := hknown
    cases hread : m.isReadout with
    | true =>
      cases m with
      | readRegister n =>
        obtain ⟨v, hv⟩ := exists_readoutOf (of_decide_eq_true hm) (s.withReadouts ws)
        obtain ⟨vs, hvs, hlen⟩ := ih hms h (ws ++ [v])
        refine ⟨v :: vs, leads_cons.2 ⟨_, .readout n v rfl hv, ?_⟩, ?_⟩
        · rw [List.append_cons ws v vs]
          exact hvs
        · rw [List.countP_cons_of_pos hread, List.length_cons, hlen]
      | quiet | present | blockReset | busAnswer | timerElapsed => cases hread
    | false =>
      have hkept : withoutReadouts (m :: ms) = m :: withoutReadouts ms :=
        List.filter_cons_of_pos (by rw [hread]; rfl)
      rw [hkept, leads_cons] at h
      obtain ⟨u, hu, hrun⟩ := h
      obtain ⟨vs, hvs, hlen⟩ := ih hms hrun ws
      have hu' := (hu.withSchedule (moves := m :: (ms ++ rest)) rfl).withReadouts hread ws
      refine ⟨vs, leads_cons.2 ⟨_, hu', hvs⟩, ?_⟩
      rw [List.countP_cons_of_neg (by simp [hread]), hlen]

end Sys2Proof.Machine

/-! SUPPORT. A micro-program under the environment `serve` runs to its end (R82 to R84, R103, R104, R223). -/

namespace Sys2Proof.Machine

variable {s t : State} {q : Seq} {op : MicroOp} {ops : List MicroOp} {r : Request} {m : Move} {ms rest : List Move}
  {cmd : Word} {p : Prog}

/-! ### What is left of the program at a position -/

/-- The micro-operations from `q` to the end of its program (R27: no branch). -/
def remaining (q : Seq) : List MicroOp := (program q.prog).drop q.idx.toNat

theorem microOpAt_of_remaining (h : remaining q = op :: ops) : microOpAt q = some op := by
  rw [microOpAt, ← List.head?_drop]
  exact congrArg List.head? h

/-- IDX goes on through the program without wrapping (R27). -/
theorem remaining_succ (h : remaining q = op :: ops) : remaining ⟨q.prog, q.idx + 1⟩ = ops := by
  have hlen : (program q.prog).length ≤ 13 := by cases q.prog <;> decide
  obtain ⟨hlt, -⟩ := List.getElem?_eq_some_iff.1 (microOpAt_of_remaining h)
  have hidx : (q.idx + 1).toNat = q.idx.toNat + 1 := by bv_omega
  rw [remaining, hidx, ← List.tail_drop]
  exact congrArg List.tail h

/-- FIN and FINR stand at the end of their programs only (R82 to R84). -/
theorem eq_nil_of_remaining_last (h : remaining q = op :: ops) (hlast : op = .fin ∨ op = .finr) : ops = [] := by
  have key : ∀ q : Seq, microOpAt q = some .fin ∨ microOpAt q = some .finr → (remaining q).tail = [] := by
    refine forall_seq ?_ ?_ ?_ ?_ <;> decide
  have htail := key q (by simpa [microOpAt_of_remaining h] using hlast)
  rwa [h] at htail

/-! ### What a served program does -/

/-- The end of a timed wait (R104). -/
def endWait (e : Event) (s : State) : State := record e (advance { s with pend := none })

/-- The state after the micro-operations `ops`, when the exchanges are answered by `rxs` in turn. -/
def served : List MicroOp → List Octet → State → State
  | [], _, s => s
  | .csa :: ops, rxs, s => served ops rxs (setCs true s)
  | .csr :: ops, rxs, s => served ops rxs (setCs false s)
  | .wus n :: ops, rxs, s => served ops rxs (endWait (.waitUs n) s)
  | .wms n :: ops, rxs, s => served ops rxs (endWait (.waitMs n) s)
  | .xfer tx dst :: ops, rxs, s => served ops rxs.tail (takeOctet tx dst (rxs.headD 0) s)
  | .finr :: ops, rxs, s => served ops rxs (finishProgram (writePosition s))
  | .fin :: ops, rxs, s => served ops rxs (finishProgram s)

/-- Silent steps change nothing of a block whose request is outstanding, however many they are (R104: over-wait). -/
theorem leads_quiets (d : Nat) (hop : microOpAt s.seq = some op) (hr : requestOf op = some r) (hp : s.pend = some r)
    (h : Leads rest ms s t) : Leads rest (List.replicate d .quiet ++ ms) s t := by
  induction d with
  | zero => exact h
  | succ d ih =>
    have hpend : s.pend ≠ none := by simp [hp]
    have hquiet : answers r .quiet = false := by cases r <;> rfl
    refine leads_reaction (u := s) (.stay op r hop hr hpend (.inl rfl) fun ha => ?_) ih
    exact absurd (hquiet.symm.trans ha.2) (by decide)

/-- A request is issued, waits as long as it has to, and is then answered by the move `m` (R103, R104). -/
theorem leads_request (d : Nat) (hop : microOpAt s.seq = some op) (hr : requestOf op = some r) (hp : s.pend = none)
    (h : Leads rest (m :: ms) (issue r s) t) : Leads rest (.quiet :: (List.replicate d .quiet ++ m :: ms)) s t :=
  leads_reaction (u := issue r s) (.issue op r hop hr hp (.inl rfl)) (leads_quiets d hop hr rfl h)

/-- Under `serve`, what is left of a program runs to its end. -/
theorem leads_serve (ops : List MicroOp) (rxs : List Octet) (delays : List Nat) (hops : remaining s.seq = ops)
    (hp : s.pend = none) : Leads rest (serve ops rxs delays) s (served ops rxs s) := by
  induction ops generalizing s rxs delays with
  | nil => exact leads_nil.2 rfl
  | cons op ops ih =>
    have hop := microOpAt_of_remaining hops
    have hnext := remaining_succ hops
    cases op with
    | csa => exact leads_reaction (u := setCs true s) (.line true hop (.inl rfl)) (ih rxs delays hnext hp)
    | csr => exact leads_reaction (u := setCs false s) (.line false hop (.inl rfl)) (ih rxs delays hnext hp)
    | wus n =>
      refine leads_request _ hop rfl hp (leads_reaction (u := endWait (.waitUs n) s) ?_ (ih rxs delays.tail hnext rfl))
      exact .elapsed (.wus n) (.wus n) (.waitUs n) n hop (by simp) rfl rfl
    | wms n =>
      refine leads_request _ hop rfl hp (leads_reaction (u := endWait (.waitMs n) s) ?_ (ih rxs delays.tail hnext rfl))
      exact .elapsed (.wms n) (.wms n) (.waitMs n) n hop (by simp) rfl rfl
    | xfer tx dst =>
      exact leads_request _ hop rfl hp (leads_reaction (u := takeOctet tx dst (rxs.headD 0) s)
        (.octet tx dst _ hop rfl rfl) (ih rxs.tail delays.tail hnext rfl))
    | finr =>
      cases eq_nil_of_remaining_last hops (.inr rfl)
      exact leads_cons.2 ⟨_, .finr hop (.inl rfl), leads_nil.2 rfl⟩
    | fin =>
      cases eq_nil_of_remaining_last hops (.inl rfl)
      exact leads_cons.2 ⟨_, .fin hop (.inl rfl), leads_nil.2 rfl⟩

/-! ### The three programs as a whole -/

/-- READ leaves its two octets in ACC, big-endian, and RESULT is read from there (R82, R121, R122, R128). -/
theorem served_readProgram (s : State) (rx1 rx2 : Octet) :
    served readProgram [rx1, rx2] s = finishProgram (writePosition
      { s with
        acc := some (rx1 ++ rx2), csAct := false, pend := none, trace := s.trace ++ eventsOf readProgram [rx1, rx2] }) := by
  have hacc : storeOctet .lo rx2 (storeOctet .hi rx1 s.acc) = some (rx1 ++ rx2) := by
    rw [storeOctet_hi_eq, storeOctet_lo_hi]
  rw [← hacc]
  simp [served, readProgram, exch, eventsOf, endWait, record, advance, setCs, takeOctet, finishProgram, writePosition,
    State.frame, State.res]

/-- ZERO and RSTD discard both octets (R83, R84, R152). -/
theorem served_deviceProgram (hp : p = .zero ∨ p = .rstd) (s : State) (rx1 rx2 : Octet) :
    served (program p) [rx1, rx2] s = finishProgram
      { s with csAct := false, pend := none, trace := s.trace ++ eventsOf (program p) [rx1, rx2] } := by
  rcases hp with rfl | rfl <;>
    simp [served, program, zeroProgram, rstdProgram, exch, eventsOf, endWait, record, advance, setCs, takeOctet,
      finishProgram]

/-! ### A served command -/

theorem State.Inv.not_busy_of_idle (h : s.Inv) (hidle : s.Idle) : s.busy = false := by
  cases hb : s.busy with
  | false => rfl
  | true => exact absurd hidle (h.busy_iff.1 hb)

/-- STATUS at the end of a bus command (R29 to R32, R105, R128). -/
def statusAfter (v : BitVec 8) : BitVec 8 :=
  setErr errOk (setDone true (setBusy false (setBusy true (setErr errOk (setDone false v)))))

theorem statusAfter_fields (v : BitVec 8) :
    statusBusy (statusAfter v) = false ∧ statusDone (statusAfter v) = true ∧ statusErr (statusAfter v) = 0 ∧
      statusPfault (statusAfter v) = statusPfault v ∧ statusReserved (statusAfter v) = statusReserved v := by
  simp [statusAfter, errOk]

/-- A bus command presented to an idle block and served, with register readouts in any place, runs its program to the end; each
readout has its one answer (R34, R120, R150, R151, R223). -/
theorem run_served_command {rxs : List Octet} {delays : List Nat} {moves : List Move} (h : s.Inv) (hidle : s.Idle)
    (hc : (cmd, p) ∈ ([(0x0100, .read), (0x0200, .zero), (0x0300, .rstd)] : List (Word × Prog)))
    (hsched : s.schedule = moves ++ rest) (hknown : moves.all readsKnownRegisters = true)
    (hmoves : withoutReadouts moves = .present cmd :: serve (program p) rxs delays) :
    ∃ vs, Sys2Proof.core.run moves.length s =
        .next (((served (program p) rxs (startProgram p (beginCommand cmd s))).withReadouts
          (s.readouts ++ vs)).withSchedule rest) ∧
      vs.length = moves.countP Move.isReadout := by
  have hb := h.not_busy_of_idle hidle
  obtain ⟨-, -, hpend, -⟩ := h.idle_of_not_busy hb
  have hserved : Leads rest (serve (program p) rxs delays) (startProgram p (beginCommand cmd s))
      (served (program p) rxs (startProgram p (beginCommand cmd s))) :=
    leads_serve (program p) rxs delays rfl hpend
  have hall : Leads rest (withoutReadouts moves) s (served (program p) rxs (startProgram p (beginCommand cmd s))) := by
    rw [hmoves]
    exact leads_reaction (u := startProgram p (beginCommand cmd s)) (.start cmd p rfl hb hc) hserved
  obtain ⟨vs, hrun, hlen⟩ := leads_with_readouts hknown hall s.readouts
  have hself : (s.withReadouts s.readouts).withSchedule (moves ++ rest) = s := by
    rw [← hsched]
    rfl
  rw [Leads, hself] at hrun
  exact ⟨vs, hrun, hlen⟩

/-- Settles O52: the served READ ends with RESULT read from the two octets, idle as it began. -/
theorem readPositionCompletes : Obligations.ReadPositionCompletes := by
  unfold Obligations.ReadPositionCompletes
  intro s rx1 rx2 delays moves rest h hidle hsched hknown hmoves
  obtain ⟨-, hseq, hpend, hcs⟩ := h.idle_of_not_busy (h.not_busy_of_idle hidle)
  obtain ⟨vs, hrun, hlen⟩ := run_served_command (p := .read) h hidle (by simp) hsched hknown hmoves
  obtain ⟨hbusy, hdone, herr, hpfault, hreserved⟩ := statusAfter_fields s.status
  refine ⟨statusAfter s.status, vs, hrun.trans ?_, hlen, hbusy, hdone, herr, hpfault, hreserved.trans h.status_reserved⟩
  rw [program, served_readProgram, writePosition_of_acc rfl, hseq, hpend, hcs, List.append_cons s.trace,
    ← List.append_assoc]
  rfl

/-- The two device commands are bus commands, with their programs (R150, R151). -/
theorem deviceCommand_cases
    (hrow : (cmd, ops) ∈ ([(0x0200, zeroProgram), (0x0300, rstdProgram)] : List (Word × List MicroOp))) :
    ∃ p, (p = .zero ∨ p = .rstd) ∧ ops = program p ∧
      (cmd, p) ∈ ([(0x0100, .read), (0x0200, .zero), (0x0300, .rstd)] : List (Word × Prog)) := by
  simp only [List.mem_cons, List.not_mem_nil, or_false, Prod.mk.injEq] at hrow
  rcases hrow with ⟨rfl, rfl⟩ | ⟨rfl, rfl⟩
  · exact ⟨.zero, .inl rfl, rfl, by simp⟩
  · exact ⟨.rstd, .inr rfl, rfl, by simp⟩

/-- Settles O53: the served program of either device command ends idle as it began, and its octets are discarded. -/
theorem deviceCommandsComplete : Obligations.DeviceCommandsComplete := by
  unfold Obligations.DeviceCommandsComplete
  intro s rx1 rx2 delays moves rest cmd ops h hidle hrow hsched hknown hmoves
  obtain ⟨p, hp, rfl, hc⟩ := deviceCommand_cases hrow
  obtain ⟨-, hseq, hpend, hcs⟩ := h.idle_of_not_busy (h.not_busy_of_idle hidle)
  obtain ⟨vs, hrun, hlen⟩ := run_served_command h hidle hc hsched hknown hmoves
  obtain ⟨hbusy, hdone, herr, hpfault, hreserved⟩ := statusAfter_fields s.status
  refine ⟨statusAfter s.status, vs, hrun.trans ?_, hlen, hbusy, hdone, herr, hpfault, hreserved.trans h.status_reserved⟩
  rw [served_deviceProgram hp, hseq, hpend, hcs, List.append_cons s.trace, ← List.append_assoc]
  rfl

end Sys2Proof.Machine

/-! SUPPORT. The meanings of the wire octets, and the steps of the micro-operations that make no request (R101 to R103,
R105, R110). -/

namespace Sys2Proof.Machine

variable {s : State} {q : Seq} {i : Instr} {tx : Octet} {dst : Dst}

/-! ### The wire octets -/

/-- Each wire octet is the exchange of its row (R80, R103). -/
theorem exec_wireOctet
    (hrow : (i, tx) ∈ ([(.wireNop, 0x00), (.wireReset, 0x60), (.wireZero, 0x70)] : List (Instr × Octet))) (s : State) :
    exec i s = exchangeOctet tx s := by
  simp only [List.mem_cons, List.not_mem_nil, or_false, Prod.mk.injEq] at hrow
  rcases hrow with ⟨rfl, rfl⟩ | ⟨rfl, rfl⟩ | ⟨rfl, rfl⟩ <;> rfl

/-- Settles O18: the exchange takes the octet, and each destination stores it in its own way. -/
theorem wireOctetsTakeTheAnswer : Obligations.WireOctetsTakeTheAnswer := by
  unfold Obligations.WireOctetsTakeTheAnswer
  intro s i tx rx dst hrow hop hp hm
  have htake : exec i s = .next (takeOctet tx dst rx s) :=
    (exec_wireOctet hrow s).trans (exchangeOctet_takes hop hp hm)
  rw [htake, takeOctet]
  refine ⟨?_, ?_, ?_, ?_⟩
  · rintro rfl
    rw [storeOctet_hi_eq]
    rfl
  · rintro rfl a ha
    rw [ha, storeOctet_lo_some]
    rfl
  · rintro rfl hnone
    rw [hnone, storeOctet_lo_none, ← hnone]
    rfl
  · rintro rfl
    rfl

/-- Settles O19: without an octet of the bus agent the exchange stays. -/
theorem wireOctetsWaitForTheBus : Obligations.WireOctetsWaitForTheBus := by
  unfold Obligations.WireOctetsWaitForTheBus
  intro s i tx dst hrow hop hp hm
  have hpend : s.pend ≠ none := by simp [hp]
  exact (exec_wireOctet hrow s).trans (exchangeOctet_stays hop hpend fun ⟨_, rx, hrx⟩ => hm rx hrx)

theorem runMicroOp_octet (hd : decodeOctet tx = .ok i) (dst : Dst) (s : State) :
    runMicroOp (.xfer tx dst) s = exec i s := by
  simp only [runMicroOp, hd]

/-- Settles O9: the sequencer has its turn, and its micro-operation runs what the octet decodes to. -/
theorem stepRunsTheOctetAtSeq : Obligations.StepRunsTheOctetAtSeq := by
  unfold Obligations.StepRunsTheOctetAtSeq
  intro s tx dst i hop hd hm
  have hreact : react s = exec i s := (react_running hop hm).trans (runMicroOp_octet hd dst s)
  exact congrArg thenEndMove hreact

/-! ### Idle, CSA, CSR and FIN -/

/-- Settles O3: the idle reaction. -/
theorem idleBlockIgnoresLateAnswers : Obligations.IdleBlockIgnoresLateAnswers := by
  unfold Obligations.IdleBlockIgnoresLateAnswers
  intro s hidle hm
  exact (Reaction.idle hidle hm).step_eq

/-- Settles O21: the reaction of the line, with level 1. -/
theorem csaAssertsTheLine : Obligations.CsaAssertsTheLine := by
  unfold Obligations.CsaAssertsTheLine
  intro s hop hm
  exact (Reaction.line true hop hm).step_eq

/-- CSR stands at IDX 10 of every program and nowhere else (R102). -/
theorem microOpAt_eq_csr_iff : ∀ q : Seq, microOpAt q = some .csr ↔ q.prog ≠ .none ∧ q.idx = 10 := by
  refine forall_seq ?_ ?_ ?_ ?_ <;> decide

/-- Both exchanges of a program come before its CSR (R102). -/
theorem idx_lt_of_microOpAt_xfer (hop : microOpAt q = some (.xfer tx dst)) : q.idx < 10 := by
  have key : ∀ x ∈ listedExchanges, x.1.idx < 10 := by decide
  exact key _ (microOpAt_eq_xfer_iff.1 hop)

/-- Settles O22: the reaction of the line, with level 0, at the one position of CSR. -/
theorem csrReleasesTheLine : Obligations.CsrReleasesTheLine := by
  unfold Obligations.CsrReleasesTheLine
  refine ⟨microOpAt_eq_csr_iff, fun q tx dst hop => idx_lt_of_microOpAt_xfer hop, fun s hop hm => ?_⟩
  exact (Reaction.line false hop hm).step_eq

/-- FIN stands at IDX 12 of ZERO and RSTD and nowhere else (R105). -/
theorem microOpAt_eq_fin_iff : ∀ q : Seq, microOpAt q = some .fin ↔ (q.prog = .zero ∨ q.prog = .rstd) ∧ q.idx = 12 := by
  refine forall_seq ?_ ?_ ?_ ?_ <;> decide

/-- What the end of a bus command leaves in STATUS (R105, R128). -/
theorem finishProgram_status_fields (s : State) :
    statusBusy (finishProgram s).status = false ∧ statusDone (finishProgram s).status = true ∧
      statusErr (finishProgram s).status = 0 ∧ statusPfault (finishProgram s).status = s.pfault ∧
      statusReserved (finishProgram s).status = statusReserved s.status := by
  simp [errOk, State.pfault]

/-- Settles O24: the reaction of FIN at its two positions, each after the settle wait. -/
theorem finEndsTheCommand : Obligations.FinEndsTheCommand := by
  unfold Obligations.FinEndsTheCommand
  refine ⟨microOpAt_eq_fin_iff, rfl, rfl, fun s hop hm => ?_⟩
  exact ⟨(finishProgram s).status, (Reaction.fin hop hm).step_eq, finishProgram_status_fields s⟩

end Sys2Proof.Machine

/-! SUPPORT. The line: its level is that of the trace (R109), and it is held from the first CSA to the CSR (R107, R138,
R219); the shape of the three transactions (R154, R222). -/

namespace Sys2Proof.Machine

variable {s u : State}

/-! ### The line and the trace -/

theorem traceLine_append (es fs : List Event) : traceLine (es ++ fs) = fs.foldl lineAfter (traceLine es) :=
  List.foldl_append

/-- Block reset, CSA and CSR are recorded with the level that they set, and the other events say nothing of the line
(R109). -/
theorem Reaction.csAct_eq_traceLine (hu : Reaction s u) (h : s.csAct = traceLine s.trace) :
    u.csAct = traceLine u.trace := by
  cases hu with
  | reset | line => simp [traceLine_append, lineAfter]
  | drop | start | configure | illegal | octet | finr | fin => simp [traceLine_append, lineAfter, h]
  | elapsed op r e n hop hw =>
    rcases wait_cases hw with ⟨-, -, rfl⟩ | ⟨-, -, rfl⟩ <;> simp [traceLine_append, lineAfter, h]
  | readout | idle | issue | stay => exact h

/-- Settles O42: a reaction keeps the agreement, and using up the move writes neither side. -/
theorem lineFollowsTheTrace : Obligations.LineFollowsTheTrace := by
  unfold Obligations.LineFollowsTheTrace
  intro s t h hstep
  obtain ⟨u, hu, rfl⟩ := step_cases hstep
  exact hu.csAct_eq_traceLine h

/-! ### The line through a transaction -/

/-- Only block reset and CSR release the line (R101, R102, R210). -/
theorem Reaction.csAct_released (hu : Reaction s u) (hs : s.csAct = true) (ht : u.csAct = false) :
    s.move = .blockReset ∨ microOpAt s.seq = some .csr := by
  cases hu with
  | reset hm => exact .inl hm
  | line a hop =>
    cases ht
    exact .inr hop
  | _ => exact absurd (hs.symm.trans ht) (by decide)

/-- The line is active from IDX 1 to IDX 10 of a program (R107). -/
theorem lineAt_of_running {q : Seq} (hp : q.prog ≠ .none) (h1 : 1 ≤ q.idx) (h10 : q.idx ≤ 10) : lineAt q = true := by
  obtain ⟨prog, idx⟩ := q
  cases prog with
  | none => exact absurd rfl hp
  | read | zero | rstd => exact decide_eq_true ⟨h1, h10⟩

/-- Settles O50: the invariant has the line active there, and CSR, which alone could release it, stands at IDX 10. -/
theorem lineIsHeldThroughTheTransaction : Obligations.LineIsHeldThroughTheTransaction := by
  unfold Obligations.LineIsHeldThroughTheTransaction
  intro s t h hp h1 h9 hm hstep
  obtain ⟨u, hu, rfl⟩ := step_cases hstep
  have h10 : s.seq.idx ≤ 10 := BitVec.le_trans h9 (by decide)
  have hs : s.csAct = true := h.line.trans (lineAt_of_running hp h1 h10)
  refine ⟨hs, ?_⟩
  cases ht : u.csAct with
  | true => exact ht
  | false =>
    rcases hu.csAct_released hs ht with hreset | hcsr
    · exact absurd hreset hm
    · obtain ⟨-, hidx⟩ := (microOpAt_eq_csr_iff s.seq).1 hcsr
      rw [hidx] at h9
      exact absurd h9 (by decide)

/-! ### The shape of a transaction -/

/-- Settles O51: no clause looks at what the bus agent returned, so each one is computed along the program. -/
theorem transactionShape : Obligations.TransactionShape := by
  unfold Obligations.TransactionShape
  intro rx1 rx2
  refine ⟨rfl, rfl, rfl, fun p hp => ?_⟩
  simp only [List.mem_cons, List.not_mem_nil, or_false] at hp
  rcases hp with rfl | rfl | rfl <;> exact ⟨rfl, rfl, rfl⟩

end Sys2Proof.Machine

/-! SUPPORT. A request that is never answered: the block stays where it stands (R103, R104, R187). -/

namespace Sys2Proof.Machine

variable {s t u : State} {r : Request}

/-- What a waiting block keeps: its position, its request, the line, and every register but STATUS, of which it keeps
BUSY. -/
structure State.StaysAs (t s : State) : Prop where
  seq : t.seq = s.seq
  pend : t.pend = s.pend
  busy : t.busy = s.busy
  csAct : t.csAct = s.csAct
  result : t.result = s.result
  config : t.config = s.config
  acc : t.acc = s.acc

theorem State.StaysAs.refl (s : State) : s.StaysAs s := ⟨rfl, rfl, rfl, rfl, rfl, rfl, rfl⟩

theorem State.StaysAs.trans (htu : t.StaysAs u) (hus : u.StaysAs s) : t.StaysAs s :=
  ⟨htu.seq.trans hus.seq, htu.pend.trans hus.pend, htu.busy.trans hus.busy, htu.csAct.trans hus.csAct,
    htu.result.trans hus.result, htu.config.trans hus.config, htu.acc.trans hus.acc⟩

theorem State.StaysAs.endMove (h : t.StaysAs s) : (endMove t).StaysAs s :=
  ⟨h.seq, h.pend, h.busy, h.csAct, h.result, h.config, h.acc⟩

/-- A block with a request outstanding is busy (R28, R29). -/
theorem State.Inv.busy_of_pend (h : s.Inv) (hp : s.pend = some r) : s.busy = true := by
  obtain ⟨op, hop, -⟩ := h.pend_at r hp
  exact h.busy_iff.2 (prog_ne_none_of_microOpAt hop)

/-- What holds of all moves of the schedule, and of silence, holds of the next move. -/
theorem move_of_all {P : Move → Bool} (hq : P .quiet = true) (h : s.schedule.all P = true) : P s.move = true := by
  unfold State.move
  cases hsched : s.schedule with
  | nil => exact hq
  | cons m ms =>
    rw [hsched, List.all_cons, Bool.and_eq_true] at h
    exact h.1

theorem all_tail {P : Move → Bool} {moves : List Move} (h : moves.all P = true) : moves.tail.all P = true :=
  List.all_eq_true.2 fun m hm => List.all_eq_true.1 h m (List.mem_of_mem_tail hm)

theorem neverAnswers_move (h : neverAnswers r s.schedule = true) : answers r s.move = false ∧ s.move ≠ .blockReset := by
  have hmove := move_of_all (by cases r <;> rfl) h
  simpa using hmove

/-- A move that neither answers the request nor resets the block leaves it waiting: a command is dropped, a register is read,
and the sequencer stays (R34, R185, R187). -/
theorem exists_waiting_reaction (h : s.Inv) (hp : s.pend = some r) (hn : answers r s.move = false)
    (hreset : s.move ≠ .blockReset) (hknown : readsKnownRegisters s.move = true) :
    ∃ u, Reaction s u ∧ u.StaysAs s := by
  have hsilent (hm : s.HostSilent) : ∃ u, Reaction s u ∧ u.StaysAs s := by
    obtain ⟨op, hop, hr⟩ := h.pend_at r hp
    exact ⟨s, .stay op r hop hr (by simp [hp]) hm (by simp [hn]), .refl s⟩
  cases hm : s.move with
  | blockReset => exact absurd hm hreset
  | present cmd =>
    have hbusy : (dropCommand cmd s).busy = s.busy := statusBusy_setPfault s.status
    exact ⟨_, .drop cmd hm (h.busy_of_pend hp), rfl, rfl, hbusy, rfl, rfl, rfl, rfl⟩
  | readRegister n =>
    rw [hm] at hknown
    obtain ⟨v, hv⟩ := exists_readoutOf (of_decide_eq_true hknown) s
    exact ⟨_, .readout n v hm hv, rfl, rfl, rfl, rfl, rfl, rfl, rfl⟩
  | quiet => exact hsilent (.inl hm)
  | timerElapsed => exact hsilent (.inr (.inl hm))
  | busAnswer rx => exact hsilent (.inr (.inr ⟨rx, hm⟩))

/-- A run under which the request is never answered ends where it began (R187). -/
theorem run_waiting (n : Nat) (h : s.Inv) (hp : s.pend = some r) (hn : neverAnswers r s.schedule = true)
    (hknown : s.schedule.all readsKnownRegisters = true) : ∃ t, Sys2Proof.core.run n s = .next t ∧ t.StaysAs s := by
  induction n generalizing s with
  | zero => exact ⟨s, run_zero s, .refl s⟩
  | succ n ih =>
    obtain ⟨hanswer, hreset⟩ := neverAnswers_move hn
    obtain ⟨u, hu, hsame⟩ := exists_waiting_reaction h hp hanswer hreset (move_of_all rfl hknown)
    have hsched : (endMove u).schedule = s.schedule.tail := congrArg List.tail hu.keeps_initRes_and_schedule.2
    obtain ⟨t, hrun, ht⟩ := ih (hu.keeps_inv h).endMove (hsame.pend.trans hp) (by rw [hsched]; exact all_tail hn)
      (by rw [hsched]; exact all_tail hknown)
    exact ⟨t, (run_of_step hu.step_eq).trans hrun, ht.trans hsame.endMove⟩

/-- Settles O54: the block stays as it is, busy, and with its request outstanding the run is not final. -/
theorem unansweredRequestIsStuck : Obligations.UnansweredRequestIsStuck := by
  unfold Obligations.UnansweredRequestIsStuck
  intro s r n h hp hn hknown
  obtain ⟨t, hrun, ht⟩ := run_waiting n h hp hn hknown
  have hpend : t.pend = some r := ht.pend.trans hp
  refine ⟨t, hrun, ht.seq, hpend, ht.busy.trans (h.busy_of_pend hp), ht.csAct, ht.result, ht.config, ht.acc, ?_⟩
  rintro ⟨-, -, hnone⟩
  exact absurd (hpend.symm.trans hnone) (by simp)

end Sys2Proof.Machine

/-! SUPPORT. The parity validator as two sums over disjoint groups of bits (R123, R124): what a flipped bit does to each sum
(R134, R135). -/

namespace Sys2Proof.Machine

/-! ### XOR reduction -/

theorem foldl_xor_add (f g : Nat → Bool) (l : List Nat) (a b : Bool) :
    l.foldl (fun c i => c ^^ (f i ^^ g i)) (a ^^ b) =
      (l.foldl (fun c i => c ^^ f i) a ^^ l.foldl (fun c i => c ^^ g i) b) := by
  induction l generalizing a b with
  | nil => rfl
  | cons i is ih =>
    have hstep : (a ^^ b ^^ (f i ^^ g i)) = (a ^^ f i ^^ (b ^^ g i)) := by
      rw [Bool.xor_assoc, Bool.xor_left_comm b, Bool.xor_assoc]
    simp only [List.foldl_cons, hstep, ih]

/-- The XOR reduction is additive. -/
theorem xorReduce_xor (v w : Word) : xorReduce (v ^^^ w) = (xorReduce v ^^ xorReduce w) := by
  simp only [xorReduce, BitVec.getLsbD_xor]
  exact foldl_xor_add v.getLsbD w.getLsbD (List.range 16) false false

theorem foldl_xor_eq_countP (f : Nat → Bool) (l : List Nat) (a : Bool) :
    l.foldl (fun c i => c ^^ f i) a = (a ^^ decide (l.countP f % 2 = 1)) := by
  induction l generalizing a with
  | nil => simp
  | cons i is ih =>
    rw [List.foldl_cons, ih, List.countP_cons]
    cases f i with
    | false => simp
    | true =>
      have hparity : (is.countP f + 1) % 2 = 1 ↔ ¬ is.countP f % 2 = 1 := by omega
      simp only [if_true, hparity, decide_not, Bool.xor_true, Bool.not_xor, Bool.xor_not]

/-- The XOR reduction is the parity of the number of ones. -/
theorem popcount_odd_iff (v : Word) : popcount v % 2 = 1 ↔ xorReduce v = true := by
  rw [xorReduce, foldl_xor_eq_countP v.getLsbD, popcount, Bool.false_xor, decide_eq_true_iff]

/-- A single bit under a mask counts when the mask holds it. -/
theorem xorReduce_twoPow_and (m : Word) {i : Nat} (hi : i < 16) :
    xorReduce (BitVec.twoPow 16 i &&& m) = m.getLsbD i := by
  have hone : ∀ i < 16, xorReduce (BitVec.twoPow 16 i) = true := by decide
  have hzero : xorReduce 0 = false := by decide
  rw [BitVec.twoPow_and]
  cases h : m.getLsbD i with
  | true => exact hone i hi
  | false => exact hzero

theorem xorReduce_xor_and (v w m : Word) :
    xorReduce ((v ^^^ w) &&& m) = (xorReduce (v &&& m) ^^ xorReduce (w &&& m)) := by
  have hdistrib : (v ^^^ w) &&& m = (v &&& m) ^^^ (w &&& m) := by
    ext i hi
    simp only [BitVec.getElem_and, BitVec.getElem_xor, Bool.and_xor_distrib_right]
  rw [hdistrib, xorReduce_xor]

/-! ### The two groups -/

/-- `odd_x` in its mask form (R123). -/
theorem oddX_eq_xorReduce (raw : Word) : oddX raw = xorReduce (raw &&& oddMask) := by
  simp [oddX, oddMask, xorReduce, List.range_succ, Bool.xor_comm]

/-- `even_x` in its mask form (R123). -/
theorem evenX_eq_xorReduce (raw : Word) : evenX raw = xorReduce (raw &&& evenMask) := by
  simp [evenX, evenMask, xorReduce, List.range_succ, Bool.xor_comm]

theorem xorReduce_and_twoPow_xor (raw m : Word) {i : Nat} (hi : i < 16) :
    xorReduce (raw &&& (BitVec.twoPow 16 i ^^^ m)) = (raw.getLsbD i ^^ xorReduce (raw &&& m)) := by
  rw [BitVec.and_comm, xorReduce_xor_and, xorReduce_twoPow_and raw hi, BitVec.and_comm m]

/-- The checkbit CB_ODD put into its own group: bits 15, 13, …, 1 (R124). -/
theorem okOdd_eq_xorReduce (raw : Word) : okOdd raw = xorReduce (raw &&& 0xAAAA) := by
  have hmask : (0xAAAA : Word) = BitVec.twoPow 16 15 ^^^ oddMask := by decide
  rw [hmask, xorReduce_and_twoPow_xor raw oddMask (by decide), ← oddX_eq_xorReduce, okOdd]
  cases raw.getLsbD 15 <;> cases oddX raw <;> rfl

/-- The checkbit CB_EVEN put into its own group: bits 14, 12, …, 0 (R124). -/
theorem okEven_eq_xorReduce (raw : Word) : okEven raw = xorReduce (raw &&& 0x5555) := by
  have hmask : (0x5555 : Word) = BitVec.twoPow 16 14 ^^^ evenMask := by decide
  rw [hmask, xorReduce_and_twoPow_xor raw evenMask (by decide), ← evenX_eq_xorReduce, okEven]
  cases raw.getLsbD 14 <;> cases evenX raw <;> rfl

theorem chk_eq_true_iff (raw : Word) : chk raw = true ↔ okOdd raw = true ∧ okEven raw = true := by
  rw [chk, Bool.and_eq_true]

/-- Settles O26: the sums are those of the masks, and each checkbit is compared with the negation of its own. -/
theorem checkbitsNegateTheirMaskedSums : Obligations.CheckbitsNegateTheirMaskedSums := by
  unfold Obligations.CheckbitsNegateTheirMaskedSums
  intro raw
  have hodd := oddX_eq_xorReduce raw
  have heven := evenX_eq_xorReduce raw
  rw [oddMask] at hodd
  rw [evenMask] at heven
  refine ⟨hodd, heven, ?_⟩
  rw [chk_eq_true_iff, okOdd, okEven, hodd, heven, beq_iff_eq, beq_iff_eq]

/-- Settles O27: each half of the check is the XOR reduction of its whole group, which is the parity of its ones. -/
theorem checkIsOddParityOfBothGroups : Obligations.CheckIsOddParityOfBothGroups := by
  unfold Obligations.CheckIsOddParityOfBothGroups
  intro raw
  have hxor : chk raw = true ↔ xorReduce (raw &&& 0xAAAA) = true ∧ xorReduce (raw &&& 0x5555) = true := by
    rw [chk_eq_true_iff, okOdd_eq_xorReduce, okEven_eq_xorReduce]
  exact ⟨by rw [popcount_odd_iff, popcount_odd_iff, hxor], hxor⟩

/-! ### A flipped bit -/

variable {raw : Word} {i j : Nat}

/-- A flipped bit turns the check of its own group over and leaves the other's: odd numbers are the group of CB_ODD. -/
theorem okOdd_flip (raw : Word) (hi : i < 16) : okOdd (raw ^^^ BitVec.twoPow 16 i) = (okOdd raw ^^ decide (i % 2 = 1)) := by
  have hmask : ∀ i < 16, (0xAAAA : Word).getLsbD i = decide (i % 2 = 1) := by decide
  rw [okOdd_eq_xorReduce, okOdd_eq_xorReduce, xorReduce_xor_and, xorReduce_twoPow_and _ hi, hmask i hi]

/-- Even numbers are the group of CB_EVEN. -/
theorem okEven_flip (raw : Word) (hi : i < 16) :
    okEven (raw ^^^ BitVec.twoPow 16 i) = (okEven raw ^^ decide (i % 2 = 0)) := by
  have hmask : ∀ i < 16, (0x5555 : Word).getLsbD i = decide (i % 2 = 0) := by decide
  rw [okEven_eq_xorReduce, okEven_eq_xorReduce, xorReduce_xor_and, xorReduce_twoPow_and _ hi, hmask i hi]

/-- One flip breaks the check of one group (R134). -/
theorem chk_flip (h : chk raw = true) (hi : i < 16) : chk (raw ^^^ BitVec.twoPow 16 i) = false := by
  obtain ⟨hodd, heven⟩ := (chk_eq_true_iff raw).1 h
  rw [chk, okOdd_flip raw hi, okEven_flip raw hi, hodd, heven]
  rcases Nat.mod_two_eq_zero_or_one i with hp | hp <;> simp [hp]

/-- Two flips break the check of both groups, or put that of their one group right again (R135). -/
theorem chk_flip_flip (h : chk raw = true) (hi : i < 16) (hj : j < 16) :
    chk (raw ^^^ BitVec.twoPow 16 i ^^^ BitVec.twoPow 16 j) = decide (i % 2 = j % 2) := by
  obtain ⟨hodd, heven⟩ := (chk_eq_true_iff raw).1 h
  rw [chk, okOdd_flip _ hj, okEven_flip _ hj, okOdd_flip raw hi, okEven_flip raw hi, hodd, heven]
  rcases Nat.mod_two_eq_zero_or_one i with hpi | hpi <;> rcases Nat.mod_two_eq_zero_or_one j with hpj | hpj <;>
    simp [hpi, hpj]

end Sys2Proof.Machine

/-! SUPPORT. The magnitude of a frame, the normalizer, and the frames that are encodings (R125 to R132, R140). -/

namespace Sys2Proof.Machine

variable {raw : Word}

/-! ### Magnitude, normalizer and result -/

theorem magnitude_eq_setWidth (raw : Word) : magnitude raw = raw.setWidth 14 := by
  have hmask : ∀ i < 14, posMask.getLsbD i = true := by decide
  ext i hi
  simp only [magnitude, BitVec.getElem_setWidth, BitVec.getLsbD_and, hmask i hi, Bool.and_true]

theorem magnitude_toNat (raw : Word) : (magnitude raw).toNat = raw.toNat % 0x4000 := by
  rw [magnitude_eq_setWidth, BitVec.toNat_setWidth]

theorem magnitude_getLsbD (raw : Word) {i : Nat} (hi : i < 14) : (magnitude raw).getLsbD i = raw.getLsbD i := by
  rw [magnitude_eq_setWidth, BitVec.getLsbD_setWidth, decide_eq_true hi, Bool.true_and]

theorem normWidth_bits14_toNat (mag : BitVec 14) : (normWidth mag .bits14).toNat = mag.toNat := by
  simp only [normWidth]
  bv_omega

theorem normWidth_bits12_toNat (mag : BitVec 14) : (normWidth mag .bits12).toNat = mag.toNat / 4 := by
  simp only [normWidth]
  bv_omega

theorem normWidth_ne_sentinel (mag : BitVec 14) (res : Resolution) : normWidth mag res ≠ 0xFFFF := by
  intro h
  have hle := normWidth_le mag res
  rw [h] at hle
  exact absurd hle (by decide)

theorem pos_of_valid (h : chk raw = true) (res : Resolution) : pos raw res = normWidth (magnitude raw) res := by
  rw [pos, if_pos h]

theorem pos_of_invalid (h : chk raw = false) (res : Resolution) : pos raw res = 0xFFFF := by
  rw [pos, h]
  rfl

theorem pos_bits14_toNat (h : chk raw = true) : (pos raw .bits14).toNat = (magnitude raw).toNat := by
  rw [pos_of_valid h, normWidth_bits14_toNat]

theorem pos_bits12_toNat (h : chk raw = true) : (pos raw .bits12).toNat = (magnitude raw).toNat / 4 := by
  rw [pos_of_valid h, normWidth_bits12_toNat]

/-- A normalized magnitude is never the sentinel, so the sentinel tells of the check alone (R136). -/
theorem pos_eq_sentinel_iff (raw : Word) (res : Resolution) : pos raw res = 0xFFFF ↔ chk raw = false := by
  constructor
  · intro hpos
    by_contra hchk
    rw [pos_of_valid (by simpa using hchk)] at hpos
    exact normWidth_ne_sentinel _ _ hpos
  · intro h
    exact pos_of_invalid h res

/-- Settles O28: a valid frame gives its normalized magnitude, an invalid one the sentinel before any shift. -/
theorem positionSelectsAndNormalizes : Obligations.PositionSelectsAndNormalizes := by
  unfold Obligations.PositionSelectsAndNormalizes
  intro raw
  refine ⟨fun h => ?_, fun h => ⟨pos_of_invalid h _, pos_of_invalid h _⟩⟩
  rw [pos_bits14_toNat h, pos_bits12_toNat h, magnitude_toNat]
  exact ⟨rfl, rfl⟩

/-- Settles O29: a magnitude has 14 bits, of which the shift leaves 12. -/
theorem positionRange : Obligations.PositionRange := by
  unfold Obligations.PositionRange
  intro raw
  have hmag := (magnitude raw).isLt
  cases h : chk raw with
  | false => exact ⟨.inr (pos_of_invalid h _), .inr (pos_of_invalid h _)⟩
  | true =>
    rw [pos_bits14_toNat h, pos_bits12_toNat h]
    exact ⟨.inl (by omega), .inl (by omega)⟩

/-! ### Frames and their parts -/

theorem getLsbD_setWidth_magnitude (raw : Word) {i : Nat} (hi : i < 14) :
    ((magnitude raw).setWidth 16).getLsbD i = raw.getLsbD i := by
  have hi16 : i < 16 := by omega
  rw [BitVec.getLsbD_setWidth, decide_eq_true hi16, Bool.true_and, magnitude_getLsbD raw hi]

/-- The sums look at the magnitude only (R123). -/
theorem oddX_magnitude (raw : Word) : oddX ((magnitude raw).setWidth 16) = oddX raw := by
  simp only [oddX, getLsbD_setWidth_magnitude, Nat.reduceLT]

theorem evenX_magnitude (raw : Word) : evenX ((magnitude raw).setWidth 16) = evenX raw := by
  simp only [evenX, getLsbD_setWidth_magnitude, Nat.reduceLT, Nat.zero_lt_succ]

/-- A frame is its two checkbits and its magnitude (R77). -/
theorem frame_parts (raw : Word) :
    BitVec.ofBool (raw.getLsbD 15) ++ BitVec.ofBool (raw.getLsbD 14) ++ magnitude raw = raw := by
  ext i hi
  rw [BitVec.getElem_append]
  split
  case isTrue hmag =>
    rw [← BitVec.getLsbD_eq_getElem, magnitude_getLsbD raw hmag, BitVec.getLsbD_eq_getElem]
  case isFalse hmag =>
    have hcheck : i = 14 ∨ i = 15 := by omega
    rcases hcheck with rfl | rfl <;> rw [BitVec.getElem_append] <;> simp

theorem magnitude_enc (p : BitVec 14) : magnitude (enc p) = p := by
  rw [magnitude_eq_setWidth, enc, BitVec.setWidth_append_eq_right]

theorem enc_getLsbD_15 (p : BitVec 14) : (enc p).getLsbD 15 = !oddX (p.setWidth 16) := by
  simp only [enc, BitVec.getLsbD_append, BitVec.getLsbD_ofBool]
  rfl

theorem enc_getLsbD_14 (p : BitVec 14) : (enc p).getLsbD 14 = !evenX (p.setWidth 16) := by
  simp only [enc, BitVec.getLsbD_append, BitVec.getLsbD_ofBool]
  rfl

theorem chk_enc (p : BitVec 14) : chk (enc p) = true := by
  have hodd := oddX_magnitude (enc p)
  have heven := evenX_magnitude (enc p)
  rw [magnitude_enc] at hodd heven
  rw [chk_eq_true_iff, okOdd, okEven, enc_getLsbD_15, enc_getLsbD_14, hodd, heven]
  exact ⟨BEq.rfl, BEq.rfl⟩

/-- A frame is valid exactly when it is the encoding of its magnitude (R140). -/
theorem chk_iff_eq_enc (raw : Word) : chk raw = true ↔ raw = enc (magnitude raw) := by
  constructor
  · intro h
    obtain ⟨hodd, heven⟩ := (chk_eq_true_iff raw).1 h
    rw [okOdd, beq_iff_eq] at hodd
    rw [okEven, beq_iff_eq] at heven
    rw [enc, oddX_magnitude, evenX_magnitude, ← hodd, ← heven, frame_parts]
  · intro h
    rw [h]
    exact chk_enc _

end Sys2Proof.Machine

/-! SUPPORT. What the encoding tells of frames and of errors in them (R132 to R137, R140). -/

namespace Sys2Proof.Machine

/-- Settles O30: the formula is the encoding's three parts shifted into place, and an encoding is valid. -/
theorem encodedMagnitudeReadsBack : Obligations.EncodedMagnitudeReadsBack := by
  unfold Obligations.EncodedMagnitudeReadsBack
  intro p
  have h := chk_enc p
  have hparts := BitVec.setWidth_append_append_eq_shiftLeft_setWidth_or (w''' := 16)
    (b := BitVec.ofBool (!oddX (p.setWidth 16))) (b' := BitVec.ofBool (!evenX (p.setWidth 16))) (b'' := p)
  rw [BitVec.setWidth_eq, oddX_eq_xorReduce, evenX_eq_xorReduce] at hparts
  refine ⟨?_, h, ?_, ?_⟩
  · rw [enc, oddX_eq_xorReduce, evenX_eq_xorReduce]
    exact hparts
  · rw [pos_bits14_toNat h, magnitude_enc]
  · rw [pos_bits12_toNat h, magnitude_enc]

/-- Settles O31: a checkbit is a bit like any other. -/
theorem flippedCheckbitGivesTheSentinel : Obligations.FlippedCheckbitGivesTheSentinel := by
  unfold Obligations.FlippedCheckbitGivesTheSentinel
  intro p res
  exact ⟨pos_of_invalid (chk_flip (i := 15) (chk_enc p) (by decide)) res,
    pos_of_invalid (chk_flip (i := 14) (chk_enc p) (by decide)) res⟩

/-- Settles O32: one flip breaks the check of its group. -/
theorem singleBitCorruptionIsDetected : Obligations.SingleBitCorruptionIsDetected := by
  unfold Obligations.SingleBitCorruptionIsDetected
  intro raw i h hi
  exact ⟨chk_flip h hi, pos_of_invalid (chk_flip h hi)⟩

/-- Two valid frames of one magnitude are the same frame (R140). -/
theorem eq_of_magnitude_eq {v w : Word} (hv : chk v = true) (hw : chk w = true) (h : magnitude v = magnitude w) :
    v = w := by
  rw [(chk_iff_eq_enc v).1 hv, (chk_iff_eq_enc w).1 hw, h]

/-- Flips of two distinct bits do not cancel. -/
theorem flip_flip_ne (raw : Word) {i j : Nat} (hi : i < 16) (hij : i ≠ j) :
    raw ^^^ BitVec.twoPow 16 i ^^^ BitVec.twoPow 16 j ≠ raw := by
  intro h
  have hbit := congrArg (BitVec.getLsbD · i) h
  simp [hi, hij] at hbit

/-- Settles O33: flips in two groups leave both checks broken; flips in one group leave a valid frame, which is another one and
so has another magnitude. -/
theorem doubleBitCorruptionByGroup : Obligations.DoubleBitCorruptionByGroup := by
  unfold Obligations.DoubleBitCorruptionByGroup
  refine ⟨fun raw i j h hi hj hij => ⟨fun hgroup => ?_, fun hgroup => ?_⟩, by decide, by decide⟩
  · rw [chk_flip_flip h hi hj, decide_eq_false hgroup]
  · have hvalid : chk (raw ^^^ BitVec.twoPow 16 i ^^^ BitVec.twoPow 16 j) = true := by
      rw [chk_flip_flip h hi hj, decide_eq_true hgroup]
    exact ⟨hvalid, fun hmag => flip_flip_ne raw hi hij (eq_of_magnitude_eq hvalid h hmag)⟩

/-- Settles O34: the sentinel is no normalized magnitude; the two frames of the rule are computed. -/
theorem sentinelMeansAFailedFrame : Obligations.SentinelMeansAFailedFrame := by
  unfold Obligations.SentinelMeansAFailedFrame
  have hones : chk 0xFFFF = false := by decide
  exact ⟨pos_eq_sentinel_iff, by decide, by decide, hones, pos_of_invalid hones⟩

/-! ### Counting the valid frames -/

/-- The valid frames are the magnitudes, by `enc` (R140). -/
def validFrameEquiv : { raw : Word // chk raw = true } ≃ BitVec 14 where
  toFun v := magnitude v.1
  invFun p := ⟨enc p, chk_enc p⟩
  left_inv v := Subtype.ext ((chk_iff_eq_enc v.1).1 v.2).symm
  right_inv := magnitude_enc

theorem natCard_bitVec (n : Nat) : Nat.card (BitVec n) = 2 ^ n :=
  (Nat.card_congr BitVec.equivFin.toEquiv).trans (Nat.card_fin _)

theorem card_valid : Nat.card { raw : Word // chk raw = true } = 16384 :=
  (Nat.card_congr validFrameEquiv).trans (natCard_bitVec 14)

/-- The invalid frames are the rest of the 65,536. -/
theorem card_valid_add_card_invalid :
    Nat.card { raw : Word // chk raw = true } + Nat.card { raw : Word // chk raw = false } = 65536 := by
  have hrest : Nat.card { raw : Word // ¬ chk raw = true } = Nat.card { raw : Word // chk raw = false } :=
    Nat.card_congr (Equiv.subtypeEquivRight fun _ => iff_of_eq (Bool.not_eq_true _))
  rw [← hrest, ← Nat.card_sum, Nat.card_congr (Equiv.sumCompl _)]
  exact natCard_bitVec 16

/-- Settles O36: the encodings are counted by their magnitudes, and the other frames are the rest. -/
theorem validFramesAreTheEncodings : Obligations.ValidFramesAreTheEncodings := by
  unfold Obligations.ValidFramesAreTheEncodings
  have hsum := card_valid_add_card_invalid
  rw [card_valid] at hsum
  exact ⟨chk_iff_eq_enc, fun raw h => pos_of_invalid h, card_valid, by omega⟩

end Sys2Proof.Machine

/-! SUPPORT. The two ends of READ: the acceptance that starts a micro-program (R120, R150, R151), and FINR (R128). -/

namespace Sys2Proof.Machine

variable {s : State} {i : Instr} {p : Prog} {cmd : Word}

/-! ### FINR -/

/-- FINR stands at the end of READ and nowhere else (R82, R106). -/
theorem microOpAt_eq_finr_iff : ∀ q : Seq, microOpAt q = some .finr ↔ q = ⟨.read, 11⟩ := by
  refine forall_seq ?_ ?_ ?_ ?_ <;> decide

/-- Settles O25: the reaction of FINR, over an ACC with a value and over one without. -/
theorem finrWritesThePosition : Obligations.FinrWritesThePosition := by
  unfold Obligations.FinrWritesThePosition
  refine ⟨microOpAt_eq_finr_iff, fun s hop hm => ?_⟩
  have hstep := (Reaction.finr hop hm).step_eq
  have hstatus := finishProgram_status_fields (writePosition s)
  refine ⟨fun raw hacc => ?_, fun hacc => ?_⟩
  · rw [writePosition_of_acc hacc] at hstep hstatus
    exact ⟨_, pos raw s.res, hstep, rfl, hstatus⟩
  · rw [writePosition_of_none hacc] at hstep hstatus
    exact ⟨_, pos (Config.unwrittenFrame s.draws) s.res, hstep, rfl, hstatus⟩

/-- Settles O35: at 12 bits the normalizer divides by 4, and FINR writes what it gives. -/
theorem twelveBitReadDropsLowBits : Obligations.TwelveBitReadDropsLowBits := by
  unfold Obligations.TwelveBitReadDropsLowBits
  refine ⟨fun raw => pos_bits12_toNat, fun s raw hop hm hacc h hres => ?_, fun p q hpq => ?_, by decide, by decide⟩
  · have hresult : (endMove (finishProgram (writePosition s))).result = normWidth (magnitude raw) .bits12 := by
      rw [endMove_result, finishProgram_result, writePosition_result, frame_eq_acc hacc, hres, pos_of_valid h]
    obtain ⟨-, -, herr, -, -⟩ := finishProgram_status_fields (writePosition s)
    refine ⟨_, (Reaction.finr hop hm).step_eq, ?_, ?_, herr⟩
    · rw [hresult, normWidth_bits12_toNat]
    · rw [hresult]
      exact normWidth_ne_sentinel _ _
  · apply BitVec.eq_of_toNat_eq
    rw [pos_bits12_toNat (chk_enc p), pos_bits12_toNat (chk_enc q), magnitude_enc, magnitude_enc, hpq]

/-! ### Acceptance -/

/-- A bus command presented to a block that is not busy is accepted and starts its program (R120, R150, R151). -/
theorem exec_busCommand_starts
    (hrow : (i, p, cmd) ∈ ([(.readPosition, .read, 0x0100), (.setZero, .zero, 0x0200), (.resetDevice, .rstd, 0x0300)] :
      List (Instr × Prog × Word)))
    (hb : s.busy = false) : exec i s = .next (startProgram p (beginCommand cmd s)) := by
  simp only [List.mem_cons, List.not_mem_nil, or_false, Prod.mk.injEq] at hrow
  rcases hrow with ⟨rfl, rfl, rfl⟩ | ⟨rfl, rfl, rfl⟩ | ⟨rfl, rfl, rfl⟩ <;> exact onCommand_idle _ _ hb

/-- What acceptance leaves in STATUS (R29 to R31). -/
theorem startProgram_beginCommand_status_fields (p : Prog) (cmd : Word) (s : State) :
    statusBusy (startProgram p (beginCommand cmd s)).status = true ∧
      statusDone (startProgram p (beginCommand cmd s)).status = false ∧
      statusErr (startProgram p (beginCommand cmd s)).status = 0 ∧
      statusPfault (startProgram p (beginCommand cmd s)).status = s.pfault ∧
      statusReserved (startProgram p (beginCommand cmd s)).status = statusReserved s.status := by
  simp [errOk, State.pfault]

/-- Settles O11: each command is its row's acceptance and start. -/
theorem busCommandsStartTheirProgram : Obligations.BusCommandsStartTheirProgram := by
  unfold Obligations.BusCommandsStartTheirProgram
  intro s i p cmd hrow hb
  exact ⟨_, exec_busCommand_starts hrow hb, startProgram_beginCommand_status_fields p cmd s⟩

end Sys2Proof.Machine

/-! SUPPORT. SET_RESOLUTION from acceptance to completion in one step (R170), and a command that is dropped (R185). -/

namespace Sys2Proof.Machine

variable {s : State} {bits : Nat}

/-- The number of bits is the low octet of the command word (R70, R72). -/
theorem commandWord_setResolution (h : bits < 256) :
    commandWord opSetResolution (BitVec.ofNat 8 bits) = BitVec.ofNat 16 (0x0400 + bits) := by
  apply BitVec.eq_of_toNat_eq
  have harg : (BitVec.ofNat 8 bits).toNat = bits := Nat.mod_eq_of_lt h
  have hword : 0x04 <<< 8 ||| bits = 0x0400 + bits := (Nat.shiftLeft_add_eq_or_of_lt h 0x04).symm
  rw [commandWord, BitVec.toNat_append, harg]
  refine hword.trans (Nat.mod_eq_of_lt ?_).symm
  omega

/-- What a command that completes in its acceptance step changes: STATUS, the CONFIG it is given, and the trace, by its two
events (R109). -/
theorem completeWith_beginCommand_eq (code : BitVec 2) (cmd : Word) (cf : BitVec 8) (s : State) :
    completeWith code { beginCommand cmd s with config := cf } =
      { s with
        status := (completeWith code (beginCommand cmd s)).status
        config := cf
        trace := s.trace ++ [.accept cmd, .done (completeWith code (beginCommand cmd s)).status s.result] } := by
  have htrace := List.append_assoc s.trace [.accept cmd] [.done (completeWith code (beginCommand cmd s)).status s.result]
  exact congrArg (fun tr => { completeWith code { beginCommand cmd s with config := cf } with trace := tr }) htrace

/-- What it leaves in STATUS (R29 to R32). -/
theorem completeWith_beginCommand_status_fields (code : BitVec 2) (cmd : Word) (s : State) :
    statusBusy (completeWith code (beginCommand cmd s)).status = s.busy ∧
      statusDone (completeWith code (beginCommand cmd s)).status = true ∧
      statusErr (completeWith code (beginCommand cmd s)).status = code ∧
      statusPfault (completeWith code (beginCommand cmd s)).status = s.pfault ∧
      statusReserved (completeWith code (beginCommand cmd s)).status = statusReserved s.status := by
  simp [State.busy, State.pfault]

/-- What a dropped command leaves in STATUS (R185). -/
theorem dropCommand_status_fields (cmd : Word) (s : State) :
    statusPfault (dropCommand cmd s).status = true ∧
      statusBusy (dropCommand cmd s).status = s.busy ∧
      statusDone (dropCommand cmd s).status = s.done ∧
      statusErr (dropCommand cmd s).status = s.err ∧
      statusReserved (dropCommand cmd s).status = statusReserved s.status := by
  simp [State.busy, State.done, State.err]

/-- SET_RESOLUTION, accepted, completes at once; the number of bits decides the code and what CONFIG holds (R170, R171). -/
theorem exec_setResolution_completes (hbits : bits < 256) (hb : s.busy = false) :
    ∃ code cf, exec (.setResolution bits) s =
        .next (completeWith code { beginCommand (BitVec.ofNat 16 (0x0400 + bits)) s with config := cf }) ∧
      ((bits = 12 ∧ code = errOk ∧ cf = setRes14 false s.config) ∨ (bits = 14 ∧ code = errOk ∧ cf = setRes14 true s.config) ∨
        (bits ≠ 12 ∧ bits ≠ 14 ∧ code = errCfg ∧ cf = s.config)) := by
  have hexec : exec (.setResolution bits) s = .next (configure bits (beginCommand (BitVec.ofNat 16 (0x0400 + bits)) s)) := by
    rw [← commandWord_setResolution hbits]
    exact onCommand_idle _ _ hb
  rcases configure_cases bits (beginCommand (BitVec.ofNat 16 (0x0400 + bits)) s) with
    ⟨h12, hc⟩ | ⟨h14, hc⟩ | ⟨h12, h14, hc⟩
  · exact ⟨errOk, _, hexec.trans (congrArg _ hc), .inl ⟨h12, rfl, rfl⟩⟩
  · exact ⟨errOk, _, hexec.trans (congrArg _ hc), .inr (.inl ⟨h14, rfl, rfl⟩)⟩
  · exact ⟨errCfg, s.config, hexec.trans (congrArg _ hc), .inr (.inr ⟨h12, h14, rfl, rfl⟩)⟩

theorem exec_setResolution_busy (hbits : bits < 256) (hb : s.busy = true) :
    exec (.setResolution bits) s = .next (dropCommand (BitVec.ofNat 16 (0x0400 + bits)) s) := by
  rw [← commandWord_setResolution hbits]
  exact onCommand_busy _ _ hb

/-- Settles O12: idle, the command completes in its acceptance step, with the code and the CONFIG of its number; busy, it is
dropped. -/
theorem setResolutionConfiguresOrRejects : Obligations.SetResolutionConfiguresOrRejects := by
  unfold Obligations.SetResolutionConfiguresOrRejects
  refine fun s bits hbits => ⟨fun hb => ?_, fun hb => ?_⟩
  · obtain ⟨code, cf, hexec, hrow⟩ := exec_setResolution_completes hbits hb
    rw [completeWith_beginCommand_eq] at hexec
    obtain ⟨hbusy, hdone, herr, hpfault, hreserved⟩ :=
      completeWith_beginCommand_status_fields code (BitVec.ofNat 16 (0x0400 + bits)) s
    refine ⟨_, cf, hexec, hbusy.trans hb, hdone, hpfault, hreserved, ?_⟩
    rcases hrow with ⟨rfl, rfl, rfl⟩ | ⟨rfl, rfl, rfl⟩ | ⟨h12, h14, rfl, rfl⟩
    · exact ⟨fun _ => ⟨configRes14_setRes14 .., configReserved_setRes14 .., herr⟩, fun h => absurd h (by decide),
        fun h => absurd rfl h⟩
    · exact ⟨fun h => absurd h (by decide), fun _ => ⟨configRes14_setRes14 .., configReserved_setRes14 .., herr⟩,
        fun _ h => absurd rfl h⟩
    · exact ⟨fun h => absurd h h12, fun h => absurd h h14, fun _ _ => ⟨rfl, herr⟩⟩
  · obtain ⟨hpfault, hbusy, hkept⟩ := dropCommand_status_fields (BitVec.ofNat 16 (0x0400 + bits)) s
    exact ⟨_, exec_setResolution_busy hbits hb, hpfault, hbusy.trans hb, hkept⟩

end Sys2Proof.Machine

/-! SUPPORT. Rejected and dropped words, as whole next states (R184, R185), and the totality of a step (R180). -/

namespace Sys2Proof.Machine

variable {s : State} {cmd : Word} {i : Instr} {op : MicroOp}

/-! ### Rejected and dropped words -/

/-- Settles O13: an illegal word's reaction accepts it and completes at once, with ERR 2. -/
theorem illegalWordIsRejected : Obligations.IllegalWordIsRejected := by
  unfold Obligations.IllegalWordIsRejected
  intro s cmd why hb hm hd
  have hstep := (Reaction.illegal cmd why hm hb hd).step_eq
  have hframe := congrArg endMove (completeWith_beginCommand_eq errIllegalCmd cmd s.config s)
  obtain ⟨hbusy, hdone, herr, hpfault, hreserved⟩ := completeWith_beginCommand_status_fields errIllegalCmd cmd s
  exact ⟨_, hstep.trans (congrArg _ hframe), herr, hdone, hbusy.trans hb, hpfault, hreserved⟩

/-- Settles O14: the reaction is the drop, whatever the word decodes to. -/
theorem wordWhileBusyIsDropped : Obligations.WordWhileBusyIsDropped := by
  unfold Obligations.WordWhileBusyIsDropped
  intro s cmd hb hm
  obtain ⟨hpfault, hbusy, hkept⟩ := dropCommand_status_fields cmd s
  exact ⟨_, (Reaction.drop cmd hm hb).step_eq, hpfault, hbusy.trans hb, hkept⟩

/-- A bus command run in a block that is busy is dropped (R120, R150, R151, R185). -/
theorem exec_busCommand_busy
    (hrow : (i, cmd) ∈ ([(.readPosition, 0x0100), (.setZero, 0x0200), (.resetDevice, 0x0300)] : List (Instr × Word)))
    (hb : s.busy = true) : exec i s = .next (dropCommand cmd s) := by
  simp only [List.mem_cons, List.not_mem_nil, or_false, Prod.mk.injEq] at hrow
  rcases hrow with ⟨rfl, rfl⟩ | ⟨rfl, rfl⟩ | ⟨rfl, rfl⟩ <;> exact onCommand_busy _ _ hb

/-- Settles O15: each command meets the busy check first. -/
theorem busCommandsWhileBusyAreDropped : Obligations.BusCommandsWhileBusyAreDropped := by
  unfold Obligations.BusCommandsWhileBusyAreDropped
  intro s i cmd hrow hb
  obtain ⟨hpfault, hbusy, hkept⟩ := dropCommand_status_fields cmd s
  exact ⟨_, exec_busCommand_busy hrow hb, hpfault, hbusy.trans hb, hkept⟩

/-! ### Every step answers a next state -/

theorem exists_onCommand_next (cmd : Word) (k : State → State) (s : State) : ∃ u, onCommand cmd k s = .next u := by
  cases hb : s.busy with
  | true => exact ⟨_, onCommand_busy cmd k hb⟩
  | false => exact ⟨_, onCommand_idle cmd k hb⟩

/-- What a command word decodes to is a command, never a wire octet, so nothing refuses it (R76). -/
theorem exists_exec_next_of_decodeCommand (hd : decodeCommand cmd = .ok i) (s : State) : ∃ u, exec i s = .next u := by
  rcases decodeCommand_ok_cases hd with ⟨rfl, -⟩ | ⟨rfl, -⟩ | ⟨rfl, -⟩ | ⟨rfl, -⟩ <;>
    exact exists_onCommand_next _ _ s

/-- The command port answers every word in every state (R188). -/
theorem exists_presentCommand_next (cmd : Word) (s : State) : ∃ u, presentCommand cmd s = .next u := by
  cases hb : s.busy with
  | true => exact ⟨_, presentCommand_busy cmd hb⟩
  | false =>
    cases hd : decodeCommand cmd with
    | ok i =>
      obtain ⟨u, hu⟩ := exists_exec_next_of_decodeCommand hd s
      exact ⟨u, (presentCommand_legal hb hd).trans hu⟩
    | error why => exact ⟨_, presentCommand_illegal hb hd⟩

/-- At its own position every micro-operation runs: an XFER is an exchange that stands there (R110). -/
theorem exists_runMicroOp_next (hop : microOpAt s.seq = some op) : ∃ u, runMicroOp op s = .next u := by
  cases op with
  | xfer tx dst =>
    obtain ⟨u, hu⟩ := exchangeOctet_next tx dst s hop
    exact ⟨u, (runMicroOp_xfer tx dst s hop).trans hu⟩
  | csa | csr | wus n | wms n | finr | fin => exact ⟨_, rfl⟩

/-- The sequencer has a micro-operation to run whenever it is not idle (R27). -/
theorem State.Inv.exists_sequencerTurn_next (h : s.Inv) : ∃ u, sequencerTurn s = .next u := by
  by_cases hidle : s.seq.prog = .none
  · exact ⟨s, sequencerTurn_idle hidle⟩
  · obtain ⟨op, hop⟩ := Option.isSome_iff_exists.1 (h.in_program hidle)
    obtain ⟨u, hu⟩ := exists_runMicroOp_next hop
    exact ⟨u, (sequencerTurn_running hop).trans hu⟩

/-- Whatever the environment does, the block reacts to it and goes on (R180). -/
theorem State.Inv.exists_react_next (h : s.Inv) (hknown : readsKnownRegisters s.move = true) : ∃ u, react s = .next u := by
  have hsilent (hm : s.HostSilent) : ∃ u, react s = .next u := by
    rw [react_hostSilent hm]
    exact h.exists_sequencerTurn_next
  cases hm : s.move with
  | blockReset => exact ⟨_, (Reaction.reset hm).react_eq⟩
  | present cmd =>
    rw [react_present hm]
    exact exists_presentCommand_next cmd s
  | readRegister n =>
    rw [hm] at hknown
    obtain ⟨v, hv⟩ := exists_readoutOf (of_decide_eq_true hknown) s
    exact ⟨_, (Reaction.readout n v hm hv).react_eq⟩
  | quiet => exact hsilent (.inl hm)
  | timerElapsed => exact hsilent (.inr (.inl hm))
  | busAnswer rx => exact hsilent (.inr (.inr ⟨rx, hm⟩))

/-- Settles O41: the step is the block's reaction with the environment's move used up. -/
theorem blockNeverHalts : Obligations.BlockNeverHalts := by
  unfold Obligations.BlockNeverHalts
  intro s h hknown
  obtain ⟨u, hu⟩ := h.exists_react_next hknown
  exact ⟨endMove u, step_eq_next.2 ⟨u, hu, rfl⟩⟩

end Sys2Proof.Machine

/-! SUPPORT. Block reset and what follows it up to the host's next action (R210, R212). -/

namespace Sys2Proof.Machine

variable {s : State} {n : Nat}

/-! ### A silent environment -/

theorem hostSilent_of_not_ofHost (h : s.move.ofHost = false) : s.HostSilent := by
  cases hm : s.move with
  | quiet => exact .inl hm
  | timerElapsed => exact hostSilent_of_timerElapsed hm
  | busAnswer rx => exact hostSilent_of_busAnswer hm
  | present cmd | readRegister k | blockReset => simp [hm, Move.ofHost] at h

/-- Where the host is in none of the next moves, and there is one at least, it does nothing in this step. -/
theorem hostSilent_of_take_succ (h : (s.schedule.take (n + 1)).all (fun m => !m.ofHost) = true) : s.HostSilent := by
  have hm : (s.withSchedule (s.schedule.take (n + 1))).move = s.move := by
    simp [State.move, State.withSchedule, List.head?_take]
  have hhost := move_of_all (s := s.withSchedule (s.schedule.take (n + 1))) rfl h
  rw [hm] at hhost
  exact hostSilent_of_not_ofHost (by simpa using hhost)

/-- An idle block that the host leaves alone uses up its schedule and nothing else, whatever answers come late (R110, R212). -/
theorem run_idle (n : Nat) (hidle : s.Idle) (h : (s.schedule.take n).all (fun m => !m.ofHost) = true) :
    Sys2Proof.core.run n s = .next { s with schedule := s.schedule.drop n } := by
  induction n generalizing s with
  | zero => exact run_zero s
  | succ n ih =>
    have hstep := idleBlockIgnoresLateAnswers s hidle (hostSilent_of_take_succ h)
    have htail := all_tail h
    rw [List.tail_take_eq_take_tail, Nat.add_sub_cancel] at htail
    rw [run_of_step hstep, ih (s := { s with schedule := s.schedule.tail }) hidle htail, List.drop_tail]

/-! ### Block reset -/

/-- Settles O2: the step is the reset reaction, which leaves an idle block behind for `run_idle`, and PFAULT is sticky in every
other step. -/
theorem blockResetFromEveryState : Obligations.BlockResetFromEveryState := by
  unfold Obligations.BlockResetFromEveryState
  constructor
  · intro s hm
    refine ⟨endMove (blockReset s), (Reaction.reset hm).step_eq, rfl, rfl, rfl, rfl, rfl, rfl, rfl,
      configReserved_resetOf s.initRes, configRes14_resetOf s.initRes, rfl, rfl, rfl, rfl, rfl, rfl, ?_⟩
    exact fun n hn => run_idle n rfl hn
  · intro s t h hs ht
    by_contra hm
    have hkept : t.pfault = true := (pfaultIsSticky s t h hm).2 (.inl hs)
    exact absurd (ht.symm.trans hkept) Bool.false_ne_true

end Sys2Proof.Machine

/-! SUPPORT. An instruction placed for the next step (R211; log entry 10). -/

namespace Sys2Proof.Machine

variable {i : Instr}

/-- The table's two widths are the two formats (R86). -/
theorem decodeTableWord_eq_some {nbits w : Nat} (h : decodeTableWord nbits w = some i) :
    (nbits = 16 ∧ decodeCommand (BitVec.ofNat 16 w) = .ok i) ∨ (nbits = 8 ∧ decodeOctet (BitVec.ofNat 8 w) = .ok i) := by
  have hok {x : Except DecodeReject Instr} (hx : x.toOption = some i) : x = .ok i := by
    cases x <;> cases hx
    rfl
  unfold decodeTableWord at h
  split at h
  case isTrue h16 => exact .inl ⟨h16, hok h⟩
  case isFalse =>
  split at h
  case isTrue h8 => exact .inr ⟨h8, hok h⟩
  case isFalse => cases h

/-- A step that runs an instruction which answers a next state answers one itself. -/
theorem exists_step_next {s u : State} (hstep : step s = thenEndMove (exec i s)) (hu : exec i s = .next u) :
    ∃ t, step s = .next t := ⟨endMove u, by rw [hstep, hu, thenEndMove_next]⟩

theorem placeCommand_runs_next {cmd : Word} (hd : decodeCommand cmd = .ok i) (s : State) :
    step (placeCommand cmd s) = thenEndMove (exec i (placeCommand cmd s)) ∧ ∃ t, step (placeCommand cmd s) = .next t := by
  have hstep := stepRunsThePresentedCommand (placeCommand cmd s) cmd i (statusBusy_setBusy s.status false) rfl hd
  obtain ⟨u, hu⟩ := exists_exec_next_of_decodeCommand hd (placeCommand cmd s)
  exact ⟨hstep, exists_step_next hstep hu⟩

/-- A wire octet has its exchange where `placeOctet` stands the block (R82 to R84). -/
theorem microOpAt_exchangePosition {b : Octet} (hd : decodeOctet b = .ok i) :
    ∃ dst, microOpAt (exchangePosition b) = some (.xfer b dst) := by
  rcases decodeOctet_ok_cases hd with ⟨-, rfl⟩ | ⟨-, rfl⟩ | ⟨-, rfl⟩
  · exact ⟨.hi, rfl⟩
  · exact ⟨.none, rfl⟩
  · exact ⟨.none, rfl⟩

theorem placeOctet_runs_next {b : Octet} (hd : decodeOctet b = .ok i) (s : State) :
    step (placeOctet b s) = thenEndMove (exec i (placeOctet b s)) ∧ ∃ t, step (placeOctet b s) = .next t := by
  obtain ⟨dst, hop⟩ := microOpAt_exchangePosition hd
  have hstep := stepRunsTheOctetAtSeq (placeOctet b s) b dst i hop hd (.inl rfl)
  obtain ⟨u, hu⟩ := exists_runMicroOp_next (s := placeOctet b s) hop
  exact ⟨hstep, exists_step_next hstep ((runMicroOp_octet hd dst _).symm.trans hu)⟩

/-- Settles O10: each width is placed in its own way, at the command port or at an exchange. -/
theorem placedInstructionRunsNext : Obligations.PlacedInstructionRunsNext := by
  unfold Obligations.PlacedInstructionRunsNext
  intro s nbits w i _ hdecode
  rcases decodeTableWord_eq_some hdecode with ⟨rfl, hd⟩ | ⟨rfl, hd⟩
  · exact placeCommand_runs_next hd s
  · exact placeOctet_runs_next hd s

end Sys2Proof.Machine
